-- ==== Sys2Proof/Word.lean ====
section
/-! DEFINITION. The two word types of CORE (spec/00_scope.md R4): data are 8 bits wide, addresses and PC 16 bits. -/

namespace Sys2Proof

/-- `u8`: every register but PC, and every bus datum (R4). -/
abbrev Byte := BitVec 8

/-- `u16`: every bus address, and PC (R4). -/
abbrev Addr := BitVec 16

end Sys2Proof
end

