-- ==== Sys2Proof/Machine/Bytes.lean ====
section
/-! DEFINITION. Bit fields, extension and byte order (spec/00_scope.md section 5, spec/20_memory.md R37). -/

namespace Sys2Proof

/-- `hi(w)`, bits 15 to 8. -/
def hiByte (w : Addr) : Byte := w.extractLsb' 8 8

/-- `lo(w)`, bits 7 to 0. -/
def loByte (w : Addr) : Byte := w.extractLsb' 0 8

/-- `{hi, lo}`: the 16-bit word of a high and a low byte. -/
def wordOf (high low : Byte) : Addr := high ++ low

/-- `zext_16(v)`. -/
def zext16 (v : Byte) : Addr := v.setWidth 16

/-- `sext_16(v)`: `v` if `v < 128`, else `v + 0xFF00`. -/
def sext16 (v : Byte) : Addr := v.signExtend 16

/-- Byte `k` of a little-endian number (R37, R50). -/
def byteOfNat (w k : Nat) : Byte := BitVec.ofNat 8 (w >>> (8 * k))

end Sys2Proof
end

