-- ==== Sys2Proof/Config.lean ====
section
/-! DEFINITION. The parameters of CORE (spec/00_scope.md R4): the fixed ones, the two open magic constants, and what a device
on the bus answers. The bus itself is data of the state. -/

namespace Sys2Proof.Config

/-- Reset entry point (R4, R19). -/
def resetPc : Addr := 0xC000

/-- Reset stack pointer (R4, R19). -/
def resetSp : Byte := 0xFD

/-- First address of the stack page (R4, R35). -/
def stackBase : Addr := 0x0100

/-- The BRK vector: low byte here, high byte at the next address (R4, R42). -/
def brkVector : Addr := 0xFFFE

/-- What a byte of memory reads as that nothing has written. DESIGN CHOICE (log entry 3): R261 leaves memory
content at reset to the bus; the bus of spec/95_test_vectors.md section 0 has 0x00 there. Unsafe. -/
def unlistedByte : Byte := 0x00

/-- What a device on the bus answers to the `n`-th read, at an address: nothing is assumed about it, not that two reads of
one address agree (R31, U10), so it has no body here (log entry 2). Safe. -/
opaque deviceAnswer : Nat → Addr → Byte

/-- `XAA_MAGIC` (R213, D7): open in the spec, so it has no body here (log entry 4). Safe. -/
opaque xaaMagic : Byte

/-- `LAX_MAGIC` (R207, D7): open in the spec, so it has no body here (log entry 4). Safe. -/
opaque laxMagic : Byte

end Sys2Proof.Config
end

