-- ==== Sys2Proof/Machine/State.lean ====
section
/-! DEFINITION. The state of CORE (spec/10_state.md), the memory behind its bus (spec/20_memory.md), the outputs of the
last step, and the reasons a step can stop. -/

namespace Sys2Proof.Machine

/-- The eight flags of P, each one bit of state (R13). -/
structure Flags where
  n : Bool
  v : Bool
  u : Bool
  b : Bool
  d : Bool
  i : Bool
  z : Bool
  c : Bool
  deriving DecidableEq, Repr

/-- CORE's run state (R18). -/
inductive RunState where
  | running | halted | faulted
  deriving DecidableEq, Repr

/-- Memory behind the bus: the bytes that differ from `Config.unlistedByte`, by strictly rising address. The canonical
form is `Memory.wf`. -/
structure Memory where
  cells : List Host.Cell
  deriving DecidableEq, Repr

/-- The canonical form of a list of cells whose addresses are at least `low`: rising addresses of the 16-bit space (R30),
no entry equal to what an unlisted address reads as. -/
def cellsWf : Nat → List Host.Cell → Bool
  | _, [] => true
  | low, (k, v) :: rest => decide (low ≤ k) && decide (k < 65536) && decide (v ≠ Config.unlistedByte) && cellsWf (k + 1) rest

/-- The canonical form of memory. -/
def Memory.wf (m : Memory) : Bool := cellsWf 0 m.cells

/-- What stands behind a region of the bus: RAM, or memory that ignores writes, either repeated every `period` addresses
(0: not repeated); or a device. -/
inductive Behind where
  | ram (period : Nat)
  | rom (period : Nat)
  | device
  deriving DecidableEq, Repr

/-- The addresses `first` to `last`, and what stands behind them. -/
structure Region where
  first : Addr
  last : Addr
  behind : Behind
  deriving DecidableEq, Repr

/-- The `Bus` parameter (R4, R31, D22, log entry 2): the first of `regions` that holds an address says what stands there, and
an address that none holds is RAM. `answers` are the bytes devices answer, by the number of the read; `reads` is how many reads
the bus has answered. -/
structure Bus where
  regions : List Region
  answers : List (Nat × Byte)
  reads : Nat
  deriving DecidableEq, Repr

/-- The flat 64KB RAM, one instance of the parameter (D22). -/
def Bus.flat : Bus := { regions := [], answers := [], reads := 0 }

/-- The `status` that `step` returns (R5). -/
inductive Status where
  | ok | halted | faulted
  deriving DecidableEq, Repr

/-- The trace record of one executed instruction (R87). -/
structure TraceRecord where
  pc0 : Addr
  op : Byte
  a : Byte
  x : Byte
  y : Byte
  p : Byte
  sp : Byte
  deriving DecidableEq, Repr

/-- What CORE reports of an invalid opcode: the byte and its address (R242). -/
structure FaultReport where
  op : Byte
  address : Addr
  deriving DecidableEq, Repr

/-- One transaction on the bus (R31): a read with the byte it returned, or a write. -/
inductive BusAccess where
  | read (address : Addr) (value : Byte)
  | write (address : Addr) (value : Byte)
  deriving DecidableEq, Repr

/-- What the last `step` returned and emitted. The spec gives these as outputs of `step` (R5, R85, R87, R242, R40), not as
state; they stand in State because the host's step returns a state only. No rule reads them (log entry 5). -/
structure StepOutput where
  status : Status
  cycles : Nat
  trace : Option TraceRecord
  report : Option FaultReport
  accesses : List BusAccess
  deriving DecidableEq, Repr

/-- No step has returned anything yet. -/
def StepOutput.empty : StepOutput :=
  { status := .ok, cycles := 0, trace := none, report := none, accesses := [] }

/-- The state of CORE (R10 to R13, R18, R20), its bus and the memory behind it (log entry 2), and the outputs of the last
step. -/
structure State where
  a : Byte
  x : Byte
  y : Byte
  sp : Byte
  pc : Addr
  p : Flags
  run : RunState
  bus : Bus
  mem : Memory
  out : StepOutput
  deriving DecidableEq, Repr

/-- The reasons a step stops with a fault. There is none: R241 says that nothing but BRK, KIL and an invalid opcode raises
an event, and the spec describes the state each of these leaves, so each is a next state (log entry 6). -/
inductive Fault where
  deriving DecidableEq, Repr

/-- The reasons an instruction has no meaning. -/
inductive Refusal where
  /-- Raised by an arm of `exec` whose instruction is not modelled yet; no arm does. Safe. -/
  | notModelled (mnemonic : String)
  deriving DecidableEq, Repr

/-- The machine right after reset, with nothing in memory, on the flat bus (R19, R260, R261, log entries 2 and 3). -/
def State.reset : State :=
  { a := 0x00
    x := 0x00
    y := 0x00
    sp := Config.resetSp
    pc := Config.resetPc
    p := { n := false, v := false, u := true, b := false, d := false, i := true, z := false, c := false }
    run := .running
    bus := Bus.flat
    mem := { cells := [] }
    out := StepOutput.empty }

end Sys2Proof.Machine
end

