-- ==== Sys2Proof/Machine/Flags.lean ====
section
/-! DEFINITION. The flag byte and every flag computation: spec/10_state.md R14 to R16, spec/41_arith_logic.md R100, R111,
R115. The Decimal flag is read by none of them but the encoding (R22). -/

namespace Sys2Proof.Machine

/-- `PByte()`: the stored flags as a byte, N V U B D I Z C from bit 7 down (R14). -/
def Flags.toByte (p : Flags) : Byte :=
  BitVec.ofNat 8 (p.n.toNat * 128 + p.v.toNat * 64 + p.u.toNat * 32 + p.b.toNat * 16 + p.d.toNat * 8 + p.i.toNat * 4 +
    p.z.toNat * 2 + p.c.toNat)

/-- `PackP_PHP()`: bit 4 forced to 1 (R15). -/
def Flags.packPhp (p : Flags) : Byte := p.toByte ||| 0x10

/-- `PackP_BRK()`: bits 4 and 5 forced to 1 (R15). -/
def Flags.packBrk (p : Flags) : Byte := p.toByte ||| 0x30

/-- `UnpackP(v)`: bits 4 and 5 of `v` are ignored, B is cleared and U set (R16). -/
def Flags.unpack (v : Byte) : Flags :=
  { n := v.getLsbD 7
    v := v.getLsbD 6
    u := true
    b := false
    d := v.getLsbD 3
    i := v.getLsbD 2
    z := v.getLsbD 1
    c := v.getLsbD 0 }

/-- `SetNZ(v)` (R115). -/
def Flags.setNZ (v : Byte) (p : Flags) : Flags := { p with n := v.getLsbD 7, z := v == 0 }

/-- The 8-bit sum of `AddCore(a, m, c)` (R100). -/
def addResult (a m : Byte) (c : Bool) : Byte := BitVec.ofNat 8 (a.toNat + m.toNat + c.toNat)

/-- The flags `AddCore(a, m, c)` writes (R100). -/
def Flags.addCore (a m : Byte) (c : Bool) (p : Flags) : Flags :=
  let r := addResult a m c
  { p with
    v := (a.getLsbD 7 == m.getLsbD 7) && (r.getLsbD 7 != a.getLsbD 7)
    n := r.getLsbD 7
    z := r == 0
    c := decide (a.toNat + m.toNat + c.toNat > 255) }

/-- `Compare(r, m)` (R111): N is the sign of the difference, C the unsigned comparison; V is not written. -/
def Flags.compare (r m : Byte) (p : Flags) : Flags :=
  { p with c := decide (m.toNat ≤ r.toNat), z := r == m, n := (r - m).getLsbD 7 }

/-- BIT's flags (R110): Z from the AND, N and V from the operand. -/
def Flags.bitTest (a m : Byte) (p : Flags) : Flags :=
  { p with z := (a &&& m) == 0, n := m.getLsbD 7, v := m.getLsbD 6 }

/-- The byte ROL makes: the old C enters bit 0 (R108). -/
def rolByte (v : Byte) (c : Bool) : Byte := (v <<< 1) ||| BitVec.ofNat 8 c.toNat

/-- The byte ROR makes: the old C enters bit 7 (R109). -/
def rorByte (v : Byte) (c : Bool) : Byte := (v >>> 1) ||| BitVec.ofNat 8 (c.toNat * 128)

/-- ARR's flags from its result (R212): N and Z as SetNZ, C is bit 6, V is bit 6 xor bit 5. -/
def Flags.arr (r : Byte) (p : Flags) : Flags :=
  { p.setNZ r with c := r.getLsbD 6, v := r.getLsbD 6 ^^ r.getLsbD 5 }

end Sys2Proof.Machine
end

