-- ==== Sys2Proof/Machine/Ops.lean ====
section
/-! DEFINITION. The named operations over memory, bus, stack and registers (spec/20_memory.md), the run-state events and
trap entry and return (spec/60_exceptions.md), reset and the host's moves (spec/70_reset_and_hazards.md, R7). -/

namespace Sys2Proof.Machine

/-! ## Memory: the bytes behind the bus (log entry 2) -/

/-- The byte at an address. -/
def readCells : List Host.Cell → Nat → Byte
  | [], _ => Config.unlistedByte
  | (k, v) :: rest, a => if k = a then v else readCells rest a

/-- The cells with `v` at address `a`, in canonical form. -/
def writeCells (a : Nat) (v : Byte) : List Host.Cell → List Host.Cell
  | [] => if v = Config.unlistedByte then [] else [(a, v)]
  | (k, w) :: rest =>
    if a < k then (if v = Config.unlistedByte then (k, w) :: rest else (a, v) :: (k, w) :: rest)
    else if a = k then (if v = Config.unlistedByte then rest else (a, v) :: rest)
    else (k, w) :: writeCells a v rest

/-- The byte memory holds at an address (R30). -/
def Memory.read (m : Memory) (a : Addr) : Byte := readCells m.cells a.toNat

/-- Memory with `v` at an address (R30). -/
def Memory.write (m : Memory) (a : Addr) (v : Byte) : Memory := { cells := writeCells a.toNat v m.cells }

/-! ## The bus (R31). Every transaction is recorded, in order, in the step's outputs (R40). -/

/-- What answers at one address: a byte of RAM, a byte that ignores writes, or a device. -/
inductive Port where
  | ram (cell : Addr)
  | rom (cell : Addr)
  | device
  deriving DecidableEq, Repr

/-- Whether a region holds an address. -/
def Region.holds (r : Region) (a : Addr) : Bool := decide (r.first.toNat ≤ a.toNat) && decide (a.toNat ≤ r.last.toNat)

/-- The byte of memory behind an address of a region that repeats every `period` addresses (0: does not repeat). -/
def Region.cell (r : Region) (period : Nat) (a : Addr) : Addr :=
  BitVec.ofNat 16 (r.first.toNat + (a.toNat - r.first.toNat) % period)

/-- What answers at an address of the region. -/
def Region.port (r : Region) (a : Addr) : Port :=
  match r.behind with
  | .ram period => .ram (r.cell period a)
  | .rom period => .rom (r.cell period a)
  | .device => .device

/-- What answers at an address: the first region that holds it says, and outside all of them it is RAM. -/
def Bus.port (b : Bus) (a : Addr) : Port :=
  match b.regions.find? (fun r => r.holds a) with
  | some r => r.port a
  | none => .ram a

/-- The byte of memory that a write at an address changes, if it changes one. -/
def Bus.storeCell (b : Bus) (a : Addr) : Option Addr :=
  match b.port a with
  | .ram c => some c
  | .rom _ | .device => none

/-- Memory after a write of `v` at `a` on the bus. -/
def Bus.store (b : Bus) (a : Addr) (v : Byte) (m : Memory) : Memory :=
  match b.storeCell a with
  | some c => m.write c v
  | none => m

/-- What a device answers to the `n`-th read: the byte given for it, else the open answer. -/
def Bus.deviceAnswer (b : Bus) (n : Nat) (a : Addr) : Byte := (b.answers.lookup n).getD (Config.deviceAnswer n a)

/-- What the bus answers to a read at `a` after `k` more reads. -/
def State.answer (s : State) (k : Nat) (a : Addr) : Byte :=
  match s.bus.port a with
  | .ram c | .rom c => s.mem.read c
  | .device => s.bus.deviceAnswer (s.bus.reads + k) a

/-- One more read answered. -/
def Bus.afterRead (b : Bus) : Bus := { b with reads := b.reads + 1 }

/-- The reference platform's map (R41), an instance of the parameter and no rule of CORE: 2KB of work RAM mirrored four
times, the register windows and cartridge space, whose answers are not in the source (N12), and the PRG-ROM bank. That a write
leaves the bank as it is is a choice of this instance (log entry 2). -/
def Bus.reference : Bus :=
  { Bus.flat with regions :=
      [{ first := 0x0000, last := 0x1FFF, behind := .ram 0x0800 },
       { first := 0x2000, last := 0xBFFF, behind := .device },
       { first := 0xC000, last := 0xFFFF, behind := .rom 0 }] }

/-- A bus that is one device, answering these bytes one after the other whatever the addresses, then anything: every
sequence of answers is that of such a bus. -/
def Bus.scripted (bytes : List Byte) : Bus :=
  { regions := [{ first := 0x0000, last := 0xFFFF, behind := .device }]
    answers := (List.range bytes.length).zip bytes
    reads := 0 }

/-- One more transaction of this step. -/
def State.record (e : BusAccess) (s : State) : State :=
  { s with out := { s.out with accesses := s.out.accesses ++ [e] } }

/-- `MemRead(addr, 1)`: the byte and the state after (R31). -/
def memRead (a : Addr) (s : State) : Byte × State :=
  (s.answer 0 a, State.record (.read a (s.answer 0 a)) { s with bus := s.bus.afterRead })

/-- `MemWrite(addr, 1, v)` (R31). -/
def memWrite (a : Addr) (v : Byte) (s : State) : State :=
  State.record (.write a v) { s with mem := s.bus.store a v s.mem }

/-- `ReadWord(addr)`: low byte first, the second address modulo 65536 (R32). -/
def readWord (a : Addr) (s : State) : Addr × State :=
  let low := memRead a s
  let high := memRead (a + 1) low.2
  (wordOf high.1 low.1, high.2)

/-- `ReadWordZP(zp)`: both bytes in page zero, low byte first (R33). -/
def readWordZP (zp : Byte) (s : State) : Addr × State :=
  let low := memRead (zext16 zp) s
  let high := memRead (zext16 (zp + 1)) low.2
  (wordOf high.1 low.1, high.2)

/-- `Fetch8()`: the byte at PC, and PC advanced by one modulo 65536 (R34). -/
def fetch8 (s : State) : Byte × State :=
  let b := memRead s.pc s
  (b.1, { b.2 with pc := s.pc + 1 })

/-! ## Stack (R35) -/

/-- The stack address `0x0100 + SP` (R11). -/
def stackAddr (sp : Byte) : Addr := Config.stackBase + zext16 sp

/-- `Push8(v)`: write at `0x0100 + SP`, then decrement SP modulo 256 (R35). -/
def push8 (v : Byte) (s : State) : State :=
  let t := memWrite (stackAddr s.sp) v s
  { t with sp := s.sp - 1 }

/-- `Pull8()`: increment SP modulo 256, then read at `0x0100 + SP` (R35). -/
def pull8 (s : State) : Byte × State :=
  let sp := s.sp + 1
  memRead (stackAddr sp) { s with sp := sp }

/-- Push a word, high byte first (R131, R133). -/
def pushWord (w : Addr) (s : State) : State := push8 (loByte w) (push8 (hiByte w) s)

/-- Pull a word, low byte first (R132, R134). -/
def pullWord (s : State) : Addr × State :=
  let low := pull8 s
  let high := pull8 low.2
  (wordOf high.1 low.1, high.2)

/-! ## Registers -/

/-- `SetNZ(v)` on the state (R115). -/
def State.setNZ (v : Byte) (s : State) : State := { s with p := s.p.setNZ v }

/-- `A <- v; SetNZ(A)`. -/
def State.loadA (v : Byte) (s : State) : State := { s with a := v, p := s.p.setNZ v }

/-- `X <- v; SetNZ(X)`. -/
def State.loadX (v : Byte) (s : State) : State := { s with x := v, p := s.p.setNZ v }

/-- `Y <- v; SetNZ(Y)`. -/
def State.loadY (v : Byte) (s : State) : State := { s with y := v, p := s.p.setNZ v }

/-- `P.C <- c`. -/
def State.setC (c : Bool) (s : State) : State := { s with p := { s.p with c := c } }

/-- `A <- AddCore(A, m, c)` (R100). -/
def State.addToA (m : Byte) (c : Bool) (s : State) : State :=
  { s with a := addResult s.a m c, p := s.p.addCore s.a m c }

/-- `Compare(r, m)` (R111). -/
def State.compare (r m : Byte) (s : State) : State := { s with p := s.p.compare r m }

/-- `WriteBack(ea, v)`: to A if there is no effective address, else one write to memory; address 0x0000 is an ordinary
address (R116, C3). -/
def writeBack (ea : Option Addr) (v : Byte) (s : State) : State :=
  match ea with
  | none => { s with a := v }
  | some a => memWrite a v s

/-- `MemWrite(ea, 1, v)` of a store or a read-modify-write instruction, whose `ea` is never `none` (R153, R156, R201). For a
term that is not well-formed it writes nothing (log entry 10). -/
def storeAt (ea : Option Addr) (v : Byte) (s : State) : State :=
  match ea with
  | none => s
  | some a => memWrite a v s

/-- `PC <- ea` of a jump, whose `ea` is never `none` (R129, R130, R131). -/
def jumpTo (ea : Option Addr) (s : State) : State :=
  match ea with
  | none => s
  | some a => { s with pc := a }

/-! ## Events (R240) -/

/-- Trap entry, which only BRK makes (R133, R246): PC high, PC low and the flags with B and U set are pushed, and PC is
loaded from the vector; no flag changes. -/
def takeTrap (s : State) : State :=
  let saved := push8 s.p.packBrk (pushWord s.pc s)
  let target := readWord Config.brkVector saved
  { target.2 with pc := target.1 }

/-- Trap return, which only RTI makes (R134, R247): the flags, then PC low and high, nothing added. -/
def returnFromTrap (s : State) : State :=
  let flags := pull8 s
  let target := pullWord { flags.2 with p := Flags.unpack flags.1 }
  { target.2 with pc := target.1 }

/-- `halt` (R220, R243): Halted, status Halted, 0 cycles; nothing else changes. -/
def haltCore (s : State) : State :=
  { s with run := .halted, out := { s.out with status := .halted, cycles := 0 } }

/-- `raise InvalidOpcode(op, at)` (R221, R242): Faulted, status Faulted, 0 cycles, the report; nothing else changes. -/
def raiseInvalidOpcode (op : Byte) (address : Addr) (s : State) : State :=
  { s with
    run := .faulted
    out := { s.out with status := .faulted, cycles := 0, report := some { op := op, address := address } } }

/-! ## The outputs of a step -/

/-- A step starts with no outputs. -/
def State.clearOutput (s : State) : State := { s with out := StepOutput.empty }

/-- The trace record of the opcode `op` fetched at `pc0`, sampled before the instruction executes (R87). -/
def State.emitTrace (pc0 : Addr) (op : Byte) (s : State) : State :=
  { s with
    out := { s.out with trace := some { pc0 := pc0, op := op, a := s.a, x := s.x, y := s.y, p := s.p.toByte, sp := s.sp } } }

/-- The instruction completed: `(Ok, Cycles(op, crossed, extraR))` (R84, R85). -/
def State.complete (base crossExtra : Nat) (crossed : Bool) (extraR : Nat) (s : State) : State :=
  { s with
    out := { s.out with status := .ok, cycles := base + (if crossed then crossExtra else 0) + extraR } }

/-- A step while CORE is not Running: no access, no record, nothing changes; the status says why, with 0 cycles (R86). -/
def State.idle (status : Status) (s : State) : State := { s with out := { StepOutput.empty with status := status } }

/-! ## The host's moves between steps (R7) -/

/-- `reset` (R260): every register, flag and the run state to its reset value; the bus and memory are not touched, no bus
access. -/
def State.applyReset (s : State) : State := { State.reset with bus := s.bus, mem := s.mem }

/-- The host writes one byte of the memory it owns, whatever the bus lets CORE write; CORE sees no transaction of its own
(R7 item 2). -/
def State.hostWrite (a : Addr) (v : Byte) (s : State) : State := { s with mem := s.mem.write a v }

/-- The host gives CORE another bus: a map, and what its devices will answer (R4, R7). -/
def State.hostBus (b : Bus) (s : State) : State := { s with bus := b }

/-- Three bytes at PC and the two addresses after it, modulo 65536: where the next step fetches its instruction. -/
def State.placeAtPc (b0 b1 b2 : Byte) (s : State) : State :=
  { s with mem := ((s.mem.write s.pc b0).write (s.pc + 1) b1).write (s.pc + 2) b2 }

end Sys2Proof.Machine
end

