-- ==== Sys2Proof/Syntax.lean ====
section
/-! DEFINITION. The instruction set as syntax: the thirteen addressing modes, operands, and one constructor for each
(mnemonic, rule) of spec/opcode_table.json. -/

namespace Sys2Proof

/-- The thirteen addressing modes (R70). -/
inductive Mode where
  | implied | accumulator | immediate
  | zeroPage | zeroPageX | zeroPageY
  | absolute | absoluteX | absoluteY
  | indirectX | indirectY | relative | indirect
  deriving DecidableEq, Repr

/-- An operand: an addressing mode with its operand bytes assembled as R51 says. -/
inductive Operand where
  | implied
  | accumulator
  | immediate (value : Byte)
  | zeroPage (address : Byte)
  | zeroPageX (address : Byte)
  | zeroPageY (address : Byte)
  | absolute (address : Addr)
  | absoluteX (base : Addr)
  | absoluteY (base : Addr)
  | indirectX (pointer : Byte)
  | indirectY (pointer : Byte)
  | relative (offset : Byte)
  | indirect (pointer : Addr)
  deriving DecidableEq, Repr

/-- The mode of an operand. -/
def Operand.mode : Operand → Mode
  | .implied => .implied
  | .accumulator => .accumulator
  | .immediate _ => .immediate
  | .zeroPage _ => .zeroPage
  | .zeroPageX _ => .zeroPageX
  | .zeroPageY _ => .zeroPageY
  | .absolute _ => .absolute
  | .absoluteX _ => .absoluteX
  | .absoluteY _ => .absoluteY
  | .indirectX _ => .indirectX
  | .indirectY _ => .indirectY
  | .relative _ => .relative
  | .indirect _ => .indirect

/-- CORE's instructions. Each constructor is one (mnemonic, rule) of the opcode table. An `Operand` argument carries the
addressing mode; an `opcode` argument tells apart the bytes that share mnemonic, mode and rule (log entry 1). -/
inductive Instr where
  -- arithmetic and logic (spec/41_arith_logic.md)
  | adc (o : Operand) | sbc (o : Operand) | and (o : Operand) | eor (o : Operand) | ora (o : Operand)
  | asl (o : Operand) | lsr (o : Operand) | rol (o : Operand) | ror (o : Operand)
  | bit (o : Operand) | cmp (o : Operand) | cpx (o : Operand) | cpy (o : Operand)
  -- control flow (spec/42_control_flow.md)
  | bcc (offset : Byte) | bcs (offset : Byte) | beq (offset : Byte) | bne (offset : Byte)
  | bmi (offset : Byte) | bpl (offset : Byte) | bvc (offset : Byte) | bvs (offset : Byte)
  | jmp (target : Addr) | jmpIndirect (pointer : Addr) | jsr (target : Addr) | rts | brk | rti
  -- stack, transfers, loads, stores, increments, flags, no operation (spec/43_stack_transfer_loadstore_flags.md)
  | pha | pla | php | plp
  | tax | tay | tsx | txa | tya | txs
  | lda (o : Operand) | ldx (o : Operand) | ldy (o : Operand)
  | sta (o : Operand) | stx (o : Operand) | sty (o : Operand)
  | inc (o : Operand) | dec (o : Operand)
  | inx | iny | dex | dey
  | clc | cld | cli | clv | sec | sed | sei
  | nop
  -- undocumented (spec/44_illegal.md)
  | slo (o : Operand) | rla (o : Operand) | sre (o : Operand) | rra (o : Operand)
  | sax (o : Operand) | lax (o : Operand) | laxImmediate (value : Byte)
  | dcp (o : Operand) | isc (o : Operand)
  | anc (opcode : Byte) (value : Byte) | alr (value : Byte) | arr (value : Byte)
  | xaa (value : Byte) | axs (value : Byte) | sbcEB (value : Byte)
  | las (base : Addr)
  | nopOneByte (opcode : Byte) | nopTwoByte (opcode : Byte) (o : Operand) | nopThreeByte (opcode : Byte) (o : Operand)
  | kil (opcode : Byte) | invalid (opcode : Byte)
  deriving DecidableEq, Repr

end Sys2Proof
end

