-- ==== Sys2Proof/Machine/Operands.lean ====
section
/-! DEFINITION. The addressing-mode resolver (spec/40_addressing_dispatch.md R70 to R83). The operand bytes are already
fetched, so PC is past the instruction (R12); what is left is the pointer reads and the operand read (log entry 7). -/

namespace Sys2Proof.Machine

/-- The resolver's result (R70). `none` is a value of its own, not address 0x0000 (C3). -/
structure Resolved where
  value : Byte
  ea : Option Addr
  crossed : Bool
  deriving DecidableEq, Repr

/-- The operand read at the effective address, made for every instruction of the mode, stores and jumps too (R83). -/
def readOperandAt (ea : Addr) (crossed : Bool) (s : State) : Resolved × State :=
  let v := memRead ea s
  ({ value := v.1, ea := some ea, crossed := crossed }, v.2)

/-- Absolute indexed: the sum modulo 65536; crossed when its high byte is not the base's (R77, R78). -/
def resolveAbsoluteIndexed (base : Addr) (index : Byte) (s : State) : Resolved × State :=
  let ea := base + zext16 index
  readOperandAt ea (hiByte ea != hiByte base) s

/-- The address of the high byte of an indirect jump's target: the next one, inside the same page (R82). -/
def indirectHighAddr (pointer : Addr) : Addr := (pointer &&& 0xFF00) ||| ((pointer + 1) &&& 0x00FF)

/-- `Resolve_<mode>()`. -/
def resolve : Operand → State → Resolved × State
  -- R71
  | .implied, s => ({ value := s.a, ea := none, crossed := false }, s)
  | .accumulator, s => ({ value := s.a, ea := none, crossed := false }, s)
  -- R72
  | .immediate v, s => ({ value := v, ea := none, crossed := false }, s)
  -- R73 to R75: page zero, the sum modulo 256
  | .zeroPage a, s => readOperandAt (zext16 a) false s
  | .zeroPageX a, s => readOperandAt (zext16 (a + s.x)) false s
  | .zeroPageY a, s => readOperandAt (zext16 (a + s.y)) false s
  -- R76
  | .absolute a, s => readOperandAt a false s
  -- R77, R78
  | .absoluteX base, s => resolveAbsoluteIndexed base s.x s
  | .absoluteY base, s => resolveAbsoluteIndexed base s.y s
  -- R79
  | .indirectX zp, s =>
    let ea := readWordZP (zp + s.x) s
    readOperandAt ea.1 false ea.2
  -- R80: a crossing is never reported in this mode
  | .indirectY zp, s =>
    let base := readWordZP zp s
    readOperandAt (base.1 + zext16 s.y) false base.2
  -- R81
  | .relative v, s => ({ value := v, ea := none, crossed := false }, s)
  -- R82: no read at the target, the value is the constant 0
  | .indirect pointer, s =>
    let low := memRead pointer s
    let high := memRead (indirectHighAddr pointer) low.2
    ({ value := 0, ea := some (wordOf high.1 low.1), crossed := false }, high.2)

end Sys2Proof.Machine
end

