-- ==== Sys2Proof/Machine/Cycles.lean ====
section
/-! DEFINITION. The cycle tables (spec/30_encoding.md R57) and the shared shapes of an instruction: resolve the operand,
execute, return the cycle cost (spec/40_addressing_dispatch.md R84, R85). -/

namespace Sys2Proof.Machine

/-- Base cycles of a read instruction (R57, first row); 0 where the table has no count. -/
def readCycles : Mode → Nat
  | .immediate => 2
  | .zeroPage => 3
  | .zeroPageX | .zeroPageY => 4
  | .absolute | .absoluteX | .absoluteY => 4
  | .indirectX => 6
  | .indirectY => 5
  | .implied | .accumulator | .relative | .indirect => 0

/-- The page-cross extra of a read instruction (R57). IndirectY has 1, which is never applied (R80). -/
def readCrossExtra : Mode → Nat
  | .absoluteX | .absoluteY | .indirectY => 1
  | .implied | .accumulator | .immediate | .zeroPage | .zeroPageX | .zeroPageY | .absolute | .indirectX | .relative
  | .indirect => 0

/-- Base cycles of a store (R57, second row). -/
def storeCycles : Mode → Nat
  | .zeroPage => 3
  | .zeroPageX | .zeroPageY => 4
  | .absolute => 4
  | .absoluteX | .absoluteY => 5
  | .indirectX | .indirectY => 6
  | .implied | .accumulator | .immediate | .relative | .indirect => 0

/-- Base cycles of a read-modify-write instruction (R57, third row). -/
def rmwCycles : Mode → Nat
  | .accumulator => 2
  | .zeroPage => 5
  | .zeroPageX | .zeroPageY => 6
  | .absolute => 6
  | .absoluteX | .absoluteY => 7
  | .indirectX | .indirectY => 8
  | .implied | .immediate | .relative | .indirect => 0

/-- Resolve the operand, run the routine on `(value, ea)`, and complete with these base and crossing cycles and no extra of
the routine's own (R84, R85). -/
def runOperand (base crossExtra : Nat) (o : Operand) (routine : Byte → Option Addr → State → State) (s : State) :
    Host.Outcome State Fault Refusal :=
  let r := resolve o s
  .next ((routine r.1.value r.1.ea r.2).complete base crossExtra r.1.crossed 0)

/-- A read instruction: its routine uses the value only. -/
def runRead (o : Operand) (routine : Byte → State → State) (s : State) : Host.Outcome State Fault Refusal :=
  runOperand (readCycles o.mode) (readCrossExtra o.mode) o (fun value _ => routine value) s

/-- A store of the byte `v`: its routine uses the effective address only. -/
def runStore (o : Operand) (v : Byte) (s : State) : Host.Outcome State Fault Refusal :=
  runOperand (storeCycles o.mode) 0 o (fun _ ea => storeAt ea v) s

/-- A read-modify-write instruction. -/
def runModify (o : Operand) (routine : Byte → Option Addr → State → State) (s : State) :
    Host.Outcome State Fault Refusal :=
  runOperand (rmwCycles o.mode) 0 o routine s

/-- A one-byte instruction whose routine ignores the resolver's result (R71). -/
def runImplied (cycles : Nat) (routine : State → State) (s : State) : Host.Outcome State Fault Refusal :=
  runOperand cycles 0 .implied (fun _ _ => routine) s

/-- `Branch(cond, value)` after the Relative resolver (R120, R81): base 2, 1 more when taken, 2 more when taken to another
page. -/
def runBranch (cond : Bool) (offset : Byte) (s : State) : Host.Outcome State Fault Refusal :=
  let r := resolve (.relative offset) s
  let old := s.pc
  let target := old + sext16 r.1.value
  if cond then
    .next ({ r.2 with pc := target }.complete 2 0 r.1.crossed (if hiByte target == hiByte old then 1 else 2))
  else
    .next (r.2.complete 2 0 r.1.crossed 0)

end Sys2Proof.Machine
end

