-- ==== Sys2Proof/Machine/Arith.lean ====
section
/-! DEFINITION. The meanings of spec/41_arith_logic.md. None reads the Decimal flag (R22). -/

namespace Sys2Proof.Machine

/-- ADC (R101). -/
def execAdc (o : Operand) (s : State) : Host.Outcome State Fault Refusal :=
  runRead o (fun value t => t.addToA value t.p.c) s

/-- SBC: ADC of the 8-bit complement (R102, D33). -/
def execSbc (o : Operand) (s : State) : Host.Outcome State Fault Refusal :=
  runRead o (fun value t => t.addToA (value ^^^ 0xFF) t.p.c) s

/-- AND (R103). -/
def execAnd (o : Operand) (s : State) : Host.Outcome State Fault Refusal :=
  runRead o (fun value t => t.loadA (t.a &&& value)) s

/-- EOR (R104). -/
def execEor (o : Operand) (s : State) : Host.Outcome State Fault Refusal :=
  runRead o (fun value t => t.loadA (t.a ^^^ value)) s

/-- ORA (R105). -/
def execOra (o : Operand) (s : State) : Host.Outcome State Fault Refusal :=
  runRead o (fun value t => t.loadA (t.a ||| value)) s

/-- ASL (R106). -/
def execAsl (o : Operand) (s : State) : Host.Outcome State Fault Refusal :=
  runModify o (fun value ea t => writeBack ea (value <<< 1) ((t.setC (value.getLsbD 7)).setNZ (value <<< 1))) s

/-- LSR (R107). -/
def execLsr (o : Operand) (s : State) : Host.Outcome State Fault Refusal :=
  runModify o (fun value ea t => writeBack ea (value >>> 1) ((t.setC (value.getLsbD 0)).setNZ (value >>> 1))) s

/-- ROL: the old C is read before the new C is written (R108). -/
def execRol (o : Operand) (s : State) : Host.Outcome State Fault Refusal :=
  runModify o (fun value ea t =>
    writeBack ea (rolByte value t.p.c) ((t.setC (value.getLsbD 7)).setNZ (rolByte value t.p.c))) s

/-- ROR (R109). -/
def execRor (o : Operand) (s : State) : Host.Outcome State Fault Refusal :=
  runModify o (fun value ea t =>
    writeBack ea (rorByte value t.p.c) ((t.setC (value.getLsbD 0)).setNZ (rorByte value t.p.c))) s

/-- BIT (R110). -/
def execBit (o : Operand) (s : State) : Host.Outcome State Fault Refusal :=
  runRead o (fun value t => { t with p := t.p.bitTest t.a value }) s

/-- CMP (R112). -/
def execCmp (o : Operand) (s : State) : Host.Outcome State Fault Refusal :=
  runRead o (fun value t => t.compare t.a value) s

/-- CPX (R113). -/
def execCpx (o : Operand) (s : State) : Host.Outcome State Fault Refusal :=
  runRead o (fun value t => t.compare t.x value) s

/-- CPY (R114). -/
def execCpy (o : Operand) (s : State) : Host.Outcome State Fault Refusal :=
  runRead o (fun value t => t.compare t.y value) s

end Sys2Proof.Machine
end

