-- ==== Sys2Proof/Machine/Control.lean ====
section
/-! DEFINITION. The meanings of spec/42_control_flow.md. At entry PC is past the whole instruction (R12). -/

namespace Sys2Proof.Machine

/-- BCC (R121). -/
def execBcc (offset : Byte) (s : State) : Host.Outcome State Fault Refusal := runBranch (!s.p.c) offset s

/-- BCS (R122). -/
def execBcs (offset : Byte) (s : State) : Host.Outcome State Fault Refusal := runBranch s.p.c offset s

/-- BEQ (R123). -/
def execBeq (offset : Byte) (s : State) : Host.Outcome State Fault Refusal := runBranch s.p.z offset s

/-- BNE (R124). -/
def execBne (offset : Byte) (s : State) : Host.Outcome State Fault Refusal := runBranch (!s.p.z) offset s

/-- BMI (R125). -/
def execBmi (offset : Byte) (s : State) : Host.Outcome State Fault Refusal := runBranch s.p.n offset s

/-- BPL (R126). -/
def execBpl (offset : Byte) (s : State) : Host.Outcome State Fault Refusal := runBranch (!s.p.n) offset s

/-- BVC (R127). -/
def execBvc (offset : Byte) (s : State) : Host.Outcome State Fault Refusal := runBranch (!s.p.v) offset s

/-- BVS (R128). -/
def execBvs (offset : Byte) (s : State) : Host.Outcome State Fault Refusal := runBranch s.p.v offset s

/-- JMP, Absolute form: the resolver reads the byte at the target (R129, R83). -/
def execJmp (target : Addr) (s : State) : Host.Outcome State Fault Refusal :=
  runOperand 3 0 (.absolute target) (fun _ ea => jumpTo ea) s

/-- JMP, Indirect form (R130, R82). -/
def execJmpIndirect (pointer : Addr) (s : State) : Host.Outcome State Fault Refusal :=
  runOperand 5 0 (.indirect pointer) (fun _ ea => jumpTo ea) s

/-- JSR: the address of its own last byte is pushed, high byte first (R131). -/
def execJsr (target : Addr) (s : State) : Host.Outcome State Fault Refusal :=
  runOperand 6 0 (.absolute target) (fun _ ea t => jumpTo ea (pushWord (t.pc - 1) t)) s

/-- RTS: the pulled word plus one (R132). -/
def execRts (s : State) : Host.Outcome State Fault Refusal :=
  runImplied 6 (fun t =>
    let target := pullWord t
    { target.2 with pc := target.1 + 1 }) s

/-- BRK: the one trap (R133, R246). -/
def execBrk (s : State) : Host.Outcome State Fault Refusal := runImplied 7 takeTrap s

/-- RTI (R134, R247). -/
def execRti (s : State) : Host.Outcome State Fault Refusal := runImplied 6 returnFromTrap s

end Sys2Proof.Machine
end

