-- ==== Sys2Proof/Machine/Illegal.lean ====
section
/-! DEFINITION. The meanings of spec/44_illegal.md: the undocumented instructions, KIL and the invalid opcodes. -/

namespace Sys2Proof.Machine

/-! ## Read-modify-write combinations -/

/-- SLO: ASL, then ORA with the result (R201). -/
def execSlo (o : Operand) (s : State) : Host.Outcome State Fault Refusal :=
  runModify o (fun value ea t =>
    let u := storeAt ea (value <<< 1) (t.setC (value.getLsbD 7))
    u.loadA (u.a ||| (value <<< 1))) s

/-- RLA: ROL, then AND with the result (R202). -/
def execRla (o : Operand) (s : State) : Host.Outcome State Fault Refusal :=
  runModify o (fun value ea t =>
    let u := storeAt ea (rolByte value t.p.c) (t.setC (value.getLsbD 7))
    u.loadA (u.a &&& rolByte value t.p.c)) s

/-- SRE: LSR, then EOR with the result (R203). -/
def execSre (o : Operand) (s : State) : Host.Outcome State Fault Refusal :=
  runModify o (fun value ea t =>
    let u := storeAt ea (value >>> 1) (t.setC (value.getLsbD 0))
    u.loadA (u.a ^^^ (value >>> 1))) s

/-- RRA: ROR, then ADC of the result with the carry the rotate produced (R204). -/
def execRra (o : Operand) (s : State) : Host.Outcome State Fault Refusal :=
  runModify o (fun value ea t =>
    (storeAt ea (rorByte value t.p.c) t).addToA (rorByte value t.p.c) (value.getLsbD 0)) s

/-- DCP: DEC, then CMP with the result (R208). -/
def execDcp (o : Operand) (s : State) : Host.Outcome State Fault Refusal :=
  runModify o (fun value ea t =>
    let u := storeAt ea (value - 1) t
    u.compare u.a (value - 1)) s

/-- ISC: INC, then SBC of the result (R209). -/
def execIsc (o : Operand) (s : State) : Host.Outcome State Fault Refusal :=
  runModify o (fun value ea t =>
    let u := storeAt ea (value + 1) t
    u.addToA ((value + 1) ^^^ 0xFF) u.p.c) s

/-! ## Store and load combinations -/

/-- SAX: store A AND X, no flag (R205). -/
def execSax (o : Operand) (s : State) : Host.Outcome State Fault Refusal := runStore o (s.a &&& s.x) s

/-- LAX, memory forms (R206). -/
def execLax (o : Operand) (s : State) : Host.Outcome State Fault Refusal :=
  runRead o (fun value t => { t.loadA value with x := value }) s

/-- LAX, Immediate form, over the open constant `LAX_MAGIC` (R207, D7, log entry 4). -/
def execLaxImmediate (value : Byte) (s : State) : Host.Outcome State Fault Refusal :=
  runRead (.immediate value) (fun value t =>
    let r := (t.a ||| Config.laxMagic) &&& value
    { t.loadA r with x := r }) s

/-- LAS (R216). -/
def execLas (base : Addr) (s : State) : Host.Outcome State Fault Refusal :=
  runRead (.absoluteY base) (fun value t =>
    let r := value &&& t.sp
    { t.loadA r with x := r, sp := r }) s

/-! ## Immediate combinations -/

/-- ANC, both bytes: AND, then bit 7 of the result into C (R210). -/
def execAnc (_opcode : Byte) (value : Byte) (s : State) : Host.Outcome State Fault Refusal :=
  runRead (.immediate value) (fun value t => (t.loadA (t.a &&& value)).setC ((t.a &&& value).getLsbD 7)) s

/-- ALR: AND, then LSR on A (R211). -/
def execAlr (value : Byte) (s : State) : Host.Outcome State Fault Refusal :=
  runRead (.immediate value) (fun value t =>
    let r := t.a &&& value
    (t.setC (r.getLsbD 0)).loadA (r >>> 1)) s

/-- ARR: AND, then ROR on A, with C and V from bits 6 and 5 of the result; D is ignored (R212, D24). -/
def execArr (value : Byte) (s : State) : Host.Outcome State Fault Refusal :=
  runRead (.immediate value) (fun value t =>
    let r := rorByte (t.a &&& value) t.p.c
    { t with a := r, p := t.p.arr r }) s

/-- XAA, over the open constant `XAA_MAGIC` (R213, D7, log entry 4). -/
def execXaa (value : Byte) (s : State) : Host.Outcome State Fault Refusal :=
  runRead (.immediate value) (fun value t => t.loadA ((t.a ||| Config.xaaMagic) &&& t.x &&& value)) s

/-- AXS: X is (A AND X) minus the operand; C as a compare, V not written (R214). -/
def execAxs (value : Byte) (s : State) : Host.Outcome State Fault Refusal :=
  runRead (.immediate value) (fun value t =>
    let r := t.a &&& t.x
    (t.setC (decide (value.toNat ≤ r.toNat))).loadX (r - value)) s

/-- SBC, undocumented byte 0xEB: as SBC Immediate (R215). -/
def execSbcEB (value : Byte) (s : State) : Host.Outcome State Fault Refusal :=
  runRead (.immediate value) (fun value t => t.addToA (value ^^^ 0xFF) t.p.c) s

/-! ## Undocumented NOPs: the resolver runs, nothing else does -/

/-- NOP, one byte (R217). -/
def execNopOneByte (_opcode : Byte) (s : State) : Host.Outcome State Fault Refusal := runImplied 2 (fun t => t) s

/-- NOP, two bytes (R218). -/
def execNopTwoByte (_opcode : Byte) (o : Operand) (s : State) : Host.Outcome State Fault Refusal :=
  runRead o (fun _ t => t) s

/-- NOP, three bytes (R219). -/
def execNopThreeByte (_opcode : Byte) (o : Operand) (s : State) : Host.Outcome State Fault Refusal :=
  runRead o (fun _ t => t) s

/-! ## Halt and invalid opcode: no resolver runs -/

/-- KIL (R220): PC stays at the opcode address + 1. -/
def execKil (_opcode : Byte) (s : State) : Host.Outcome State Fault Refusal := .next (haltCore s)

/-- One of the five bytes without an entry (R221): the report names the byte and its address, one before PC. -/
def execInvalid (opcode : Byte) (s : State) : Host.Outcome State Fault Refusal :=
  .next (raiseInvalidOpcode opcode (s.pc - 1) s)

end Sys2Proof.Machine
end

