-- ==== Sys2Proof/Machine/Transfer.lean ====
section
/-! DEFINITION. The meanings of spec/43_stack_transfer_loadstore_flags.md. -/

namespace Sys2Proof.Machine

/-! ## Stack -/

/-- PHA (R140). -/
def execPha (s : State) : Host.Outcome State Fault Refusal := runImplied 3 (fun t => push8 t.a t) s

/-- PLA (R141, D30). -/
def execPla (s : State) : Host.Outcome State Fault Refusal :=
  runImplied 4 (fun t =>
    let v := pull8 t
    v.2.loadA v.1) s

/-- PHP: the pushed byte has B forced to 1, the stored flags do not change (R142, R15). -/
def execPhp (s : State) : Host.Outcome State Fault Refusal := runImplied 3 (fun t => push8 t.p.packPhp t) s

/-- PLP (R143, R16). -/
def execPlp (s : State) : Host.Outcome State Fault Refusal :=
  runImplied 4 (fun t =>
    let v := pull8 t
    { v.2 with p := Flags.unpack v.1 }) s

/-! ## Transfers -/

/-- TAX (R144). -/
def execTax (s : State) : Host.Outcome State Fault Refusal := runImplied 2 (fun t => t.loadX t.a) s

/-- TAY (R145). -/
def execTay (s : State) : Host.Outcome State Fault Refusal := runImplied 2 (fun t => t.loadY t.a) s

/-- TSX (R146). -/
def execTsx (s : State) : Host.Outcome State Fault Refusal := runImplied 2 (fun t => t.loadX t.sp) s

/-- TXA (R147). -/
def execTxa (s : State) : Host.Outcome State Fault Refusal := runImplied 2 (fun t => t.loadA t.x) s

/-- TYA (R148). -/
def execTya (s : State) : Host.Outcome State Fault Refusal := runImplied 2 (fun t => t.loadA t.y) s

/-- TXS: the one transfer that writes no flag (R149). -/
def execTxs (s : State) : Host.Outcome State Fault Refusal := runImplied 2 (fun t => { t with sp := t.x }) s

/-! ## Loads and stores -/

/-- LDA (R150). -/
def execLda (o : Operand) (s : State) : Host.Outcome State Fault Refusal := runRead o (fun value t => t.loadA value) s

/-- LDX (R151). -/
def execLdx (o : Operand) (s : State) : Host.Outcome State Fault Refusal := runRead o (fun value t => t.loadX value) s

/-- LDY (R152). -/
def execLdy (o : Operand) (s : State) : Host.Outcome State Fault Refusal := runRead o (fun value t => t.loadY value) s

/-- STA (R153). -/
def execSta (o : Operand) (s : State) : Host.Outcome State Fault Refusal := runStore o s.a s

/-- STX (R154). -/
def execStx (o : Operand) (s : State) : Host.Outcome State Fault Refusal := runStore o s.x s

/-- STY (R155). -/
def execSty (o : Operand) (s : State) : Host.Outcome State Fault Refusal := runStore o s.y s

/-! ## Increments and decrements -/

/-- INC (R156). -/
def execInc (o : Operand) (s : State) : Host.Outcome State Fault Refusal :=
  runModify o (fun value ea t => storeAt ea (value + 1) (t.setNZ (value + 1))) s

/-- DEC (R157). -/
def execDec (o : Operand) (s : State) : Host.Outcome State Fault Refusal :=
  runModify o (fun value ea t => storeAt ea (value - 1) (t.setNZ (value - 1))) s

/-- INX (R158). -/
def execInx (s : State) : Host.Outcome State Fault Refusal := runImplied 2 (fun t => t.loadX (t.x + 1)) s

/-- INY (R159). -/
def execIny (s : State) : Host.Outcome State Fault Refusal := runImplied 2 (fun t => t.loadY (t.y + 1)) s

/-- DEX (R160). -/
def execDex (s : State) : Host.Outcome State Fault Refusal := runImplied 2 (fun t => t.loadX (t.x - 1)) s

/-- DEY (R161). -/
def execDey (s : State) : Host.Outcome State Fault Refusal := runImplied 2 (fun t => t.loadY (t.y - 1)) s

/-! ## Flag instructions and NOP -/

/-- CLC (R162). -/
def execClc (s : State) : Host.Outcome State Fault Refusal := runImplied 2 (fun t => t.setC false) s

/-- CLD (R163). -/
def execCld (s : State) : Host.Outcome State Fault Refusal := runImplied 2 (fun t => { t with p := { t.p with d := false } }) s

/-- CLI (R164). -/
def execCli (s : State) : Host.Outcome State Fault Refusal := runImplied 2 (fun t => { t with p := { t.p with i := false } }) s

/-- CLV (R165). -/
def execClv (s : State) : Host.Outcome State Fault Refusal := runImplied 2 (fun t => { t with p := { t.p with v := false } }) s

/-- SEC (R166). -/
def execSec (s : State) : Host.Outcome State Fault Refusal := runImplied 2 (fun t => t.setC true) s

/-- SED (R167). -/
def execSed (s : State) : Host.Outcome State Fault Refusal := runImplied 2 (fun t => { t with p := { t.p with d := true } }) s

/-- SEI (R168). -/
def execSei (s : State) : Host.Outcome State Fault Refusal := runImplied 2 (fun t => { t with p := { t.p with i := true } }) s

/-- NOP (R169). -/
def execNop (s : State) : Host.Outcome State Fault Refusal := runImplied 2 (fun t => t) s

end Sys2Proof.Machine
end

