-- ==== Sys2Proof/WellFormed.lean ====
section
/-! DEFINITION. Which terms of `Instr` are instructions of the machine: the addressing modes each mnemonic has
(the non-empty cells of R53 and R54), and the opcode bytes of the families with several (R54, R55). -/

namespace Sys2Proof

/-- The eight modes of ADC and of the other accumulator operations (R101 to R105, R112, R150). -/
def aluModes : List Mode :=
  [.immediate, .zeroPage, .zeroPageX, .absolute, .absoluteX, .absoluteY, .indirectX, .indirectY]

/-- The modes of the four shifts (R106 to R109). -/
def shiftModes : List Mode := [.accumulator, .zeroPage, .zeroPageX, .absolute, .absoluteX]

/-- The modes of CPX and CPY (R113, R114). -/
def indexCompareModes : List Mode := [.immediate, .zeroPage, .absolute]

/-- The modes of BIT (R110). -/
def bitModes : List Mode := [.zeroPage, .absolute]

/-- The modes of LDX (R151). -/
def ldxModes : List Mode := [.immediate, .zeroPage, .zeroPageY, .absolute, .absoluteY]

/-- The modes of LDY (R152). -/
def ldyModes : List Mode := [.immediate, .zeroPage, .zeroPageX, .absolute, .absoluteX]

/-- The modes of STA (R153). -/
def staModes : List Mode := [.zeroPage, .zeroPageX, .absolute, .absoluteX, .absoluteY, .indirectX, .indirectY]

/-- The modes of STX (R154). -/
def stxModes : List Mode := [.zeroPage, .zeroPageY, .absolute]

/-- The modes of STY (R155). -/
def styModes : List Mode := [.zeroPage, .zeroPageX, .absolute]

/-- The modes of INC and DEC (R156, R157). -/
def incDecModes : List Mode := [.zeroPage, .zeroPageX, .absolute, .absoluteX]

/-- The modes of SLO, RLA, SRE, RRA, DCP and ISC (R201 to R204, R208, R209). -/
def rmwComboModes : List Mode :=
  [.zeroPage, .zeroPageX, .absolute, .absoluteX, .absoluteY, .indirectX, .indirectY]

/-- The modes of SAX (R205). -/
def saxModes : List Mode := [.zeroPage, .zeroPageY, .absolute, .indirectX]

/-- The modes of the memory forms of LAX (R206). -/
def laxModes : List Mode := [.zeroPage, .zeroPageY, .absolute, .absoluteY, .indirectX, .indirectY]

/-- The bytes of ANC (R210). -/
def ancOpcodes : List Byte := [0x0B, 0x2B]

/-- The bytes of the one-byte undocumented NOP (R217). -/
def nopOneByteOpcodes : List Byte := [0x1A, 0x3A, 0x5A, 0x7A, 0xDA, 0xFA]

/-- The bytes of the two-byte NOP, by mode (R218). -/
def nopTwoByteOpcodes : Mode → List Byte
  | .immediate => [0x80, 0x82, 0x89, 0xC2, 0xE2]
  | .zeroPage => [0x04, 0x44, 0x64]
  | .zeroPageX => [0x14, 0x34, 0x54, 0x74, 0xD4, 0xF4]
  | _ => []

/-- The bytes of the three-byte NOP, by mode (R219). -/
def nopThreeByteOpcodes : Mode → List Byte
  | .absolute => [0x0C]
  | .absoluteX => [0x1C, 0x3C, 0x5C, 0x7C, 0xDC, 0xFC]
  | _ => []

/-- The twelve bytes of KIL (R220). -/
def kilOpcodes : List Byte :=
  [0x02, 0x12, 0x22, 0x32, 0x42, 0x52, 0x62, 0x72, 0x92, 0xB2, 0xD2, 0xF2]

/-- The five bytes with no entry in the matrix (R55). -/
def invalidOpcodes : List Byte := [0x93, 0x9B, 0x9C, 0x9E, 0x9F]

/-- The well-formed instructions: those some opcode byte stands for. -/
def Instr.wf : Instr → Bool
  | .adc o | .sbc o | .and o | .eor o | .ora o | .cmp o | .lda o => aluModes.contains o.mode
  | .asl o | .lsr o | .rol o | .ror o => shiftModes.contains o.mode
  | .bit o => bitModes.contains o.mode
  | .cpx o | .cpy o => indexCompareModes.contains o.mode
  | .ldx o => ldxModes.contains o.mode
  | .ldy o => ldyModes.contains o.mode
  | .sta o => staModes.contains o.mode
  | .stx o => stxModes.contains o.mode
  | .sty o => styModes.contains o.mode
  | .inc o | .dec o => incDecModes.contains o.mode
  | .slo o | .rla o | .sre o | .rra o | .dcp o | .isc o => rmwComboModes.contains o.mode
  | .sax o => saxModes.contains o.mode
  | .lax o => laxModes.contains o.mode
  | .anc opcode _ => ancOpcodes.contains opcode
  | .nopOneByte opcode => nopOneByteOpcodes.contains opcode
  | .nopTwoByte opcode o => (nopTwoByteOpcodes o.mode).contains opcode
  | .nopThreeByte opcode o => (nopThreeByteOpcodes o.mode).contains opcode
  | .kil opcode => kilOpcodes.contains opcode
  | .invalid opcode => invalidOpcodes.contains opcode
  | .bcc _ | .bcs _ | .beq _ | .bne _ | .bmi _ | .bpl _ | .bvc _ | .bvs _ => true
  | .jmp _ | .jmpIndirect _ | .jsr _ | .rts | .brk | .rti => true
  | .pha | .pla | .php | .plp | .tax | .tay | .tsx | .txa | .tya | .txs => true
  | .inx | .iny | .dex | .dey | .clc | .cld | .cli | .clv | .sec | .sed | .sei | .nop => true
  | .laxImmediate _ | .alr _ | .arr _ | .xaa _ | .axs _ | .sbcEB _ | .las _ => true

end Sys2Proof
end

