-- ==== Sys2Proof/Decode.lean ====
section
/-! DEFINITION. The decoder, the 16 by 16 matrix of spec/30_encoding.md, and after it the encoder, from the per-mnemonic
tables R53 and R54. The two are separate transcriptions of the spec: the round trips compare them. -/

namespace Sys2Proof

/-! ## Decoder -/

/-- A cell of the opcode matrix: how the instruction is made from its operand bytes. Only the opcode byte fixes
mnemonic, mode and length (R50, R52). -/
inductive Entry where
  /-- no operand byte -/
  | one (i : Instr)
  /-- one operand byte, taken as it is -/
  | byte (mk : Byte → Instr)
  /-- two operand bytes, a little-endian word -/
  | word (mk : Addr → Instr)
  /-- an operand of the given mode -/
  | operand (m : Mode) (mk : Operand → Instr)

/-- Bytes of an instruction in each mode, the opcode included (R50). -/
def Mode.length : Mode → Nat
  | .implied | .accumulator => 1
  | .immediate | .zeroPage | .zeroPageX | .zeroPageY | .indirectX | .indirectY | .relative => 2
  | .absolute | .absoluteX | .absoluteY | .indirect => 3

/-- The operand a mode assembles from the two bytes after the opcode (R51). -/
def Mode.assemble (b1 b2 : Byte) : Mode → Operand
  | .implied => .implied
  | .accumulator => .accumulator
  | .immediate => .immediate b1
  | .zeroPage => .zeroPage b1
  | .zeroPageX => .zeroPageX b1
  | .zeroPageY => .zeroPageY b1
  | .indirectX => .indirectX b1
  | .indirectY => .indirectY b1
  | .relative => .relative b1
  | .absolute => .absolute (wordOf b2 b1)
  | .absoluteX => .absoluteX (wordOf b2 b1)
  | .absoluteY => .absoluteY (wordOf b2 b1)
  | .indirect => .indirect (wordOf b2 b1)

/-- Opcode bytes 0x00 to 0x0F. -/
def matrixRow0 : List Entry :=
  [.one .brk, .operand .indirectX .ora, .one (.kil 0x02), .operand .indirectX .slo,
   .operand .zeroPage (.nopTwoByte 0x04), .operand .zeroPage .ora, .operand .zeroPage .asl, .operand .zeroPage .slo,
   .one .php, .operand .immediate .ora, .operand .accumulator .asl, .byte (.anc 0x0B),
   .operand .absolute (.nopThreeByte 0x0C), .operand .absolute .ora, .operand .absolute .asl, .operand .absolute .slo]

/-- Opcode bytes 0x10 to 0x1F. -/
def matrixRow1 : List Entry :=
  [.byte .bpl, .operand .indirectY .ora, .one (.kil 0x12), .operand .indirectY .slo,
   .operand .zeroPageX (.nopTwoByte 0x14), .operand .zeroPageX .ora, .operand .zeroPageX .asl, .operand .zeroPageX .slo,
   .one .clc, .operand .absoluteY .ora, .one (.nopOneByte 0x1A), .operand .absoluteY .slo,
   .operand .absoluteX (.nopThreeByte 0x1C), .operand .absoluteX .ora, .operand .absoluteX .asl, .operand .absoluteX .slo]

/-- Opcode bytes 0x20 to 0x2F. -/
def matrixRow2 : List Entry :=
  [.word .jsr, .operand .indirectX .and, .one (.kil 0x22), .operand .indirectX .rla,
   .operand .zeroPage .bit, .operand .zeroPage .and, .operand .zeroPage .rol, .operand .zeroPage .rla,
   .one .plp, .operand .immediate .and, .operand .accumulator .rol, .byte (.anc 0x2B),
   .operand .absolute .bit, .operand .absolute .and, .operand .absolute .rol, .operand .absolute .rla]

/-- Opcode bytes 0x30 to 0x3F. -/
def matrixRow3 : List Entry :=
  [.byte .bmi, .operand .indirectY .and, .one (.kil 0x32), .operand .indirectY .rla,
   .operand .zeroPageX (.nopTwoByte 0x34), .operand .zeroPageX .and, .operand .zeroPageX .rol, .operand .zeroPageX .rla,
   .one .sec, .operand .absoluteY .and, .one (.nopOneByte 0x3A), .operand .absoluteY .rla,
   .operand .absoluteX (.nopThreeByte 0x3C), .operand .absoluteX .and, .operand .absoluteX .rol, .operand .absoluteX .rla]

/-- Opcode bytes 0x40 to 0x4F. -/
def matrixRow4 : List Entry :=
  [.one .rti, .operand .indirectX .eor, .one (.kil 0x42), .operand .indirectX .sre,
   .operand .zeroPage (.nopTwoByte 0x44), .operand .zeroPage .eor, .operand .zeroPage .lsr, .operand .zeroPage .sre,
   .one .pha, .operand .immediate .eor, .operand .accumulator .lsr, .byte .alr,
   .word .jmp, .operand .absolute .eor, .operand .absolute .lsr, .operand .absolute .sre]

/-- Opcode bytes 0x50 to 0x5F. -/
def matrixRow5 : List Entry :=
  [.byte .bvc, .operand .indirectY .eor, .one (.kil 0x52), .operand .indirectY .sre,
   .operand .zeroPageX (.nopTwoByte 0x54), .operand .zeroPageX .eor, .operand .zeroPageX .lsr, .operand .zeroPageX .sre,
   .one .cli, .operand .absoluteY .eor, .one (.nopOneByte 0x5A), .operand .absoluteY .sre,
   .operand .absoluteX (.nopThreeByte 0x5C), .operand .absoluteX .eor, .operand .absoluteX .lsr, .operand .absoluteX .sre]

/-- Opcode bytes 0x60 to 0x6F. -/
def matrixRow6 : List Entry :=
  [.one .rts, .operand .indirectX .adc, .one (.kil 0x62), .operand .indirectX .rra,
   .operand .zeroPage (.nopTwoByte 0x64), .operand .zeroPage .adc, .operand .zeroPage .ror, .operand .zeroPage .rra,
   .one .pla, .operand .immediate .adc, .operand .accumulator .ror, .byte .arr,
   .word .jmpIndirect, .operand .absolute .adc, .operand .absolute .ror, .operand .absolute .rra]

/-- Opcode bytes 0x70 to 0x7F. -/
def matrixRow7 : List Entry :=
  [.byte .bvs, .operand .indirectY .adc, .one (.kil 0x72), .operand .indirectY .rra,
   .operand .zeroPageX (.nopTwoByte 0x74), .operand .zeroPageX .adc, .operand .zeroPageX .ror, .operand .zeroPageX .rra,
   .one .sei, .operand .absoluteY .adc, .one (.nopOneByte 0x7A), .operand .absoluteY .rra,
   .operand .absoluteX (.nopThreeByte 0x7C), .operand .absoluteX .adc, .operand .absoluteX .ror, .operand .absoluteX .rra]

/-- Opcode bytes 0x80 to 0x8F. -/
def matrixRow8 : List Entry :=
  [.operand .immediate (.nopTwoByte 0x80), .operand .indirectX .sta, .operand .immediate (.nopTwoByte 0x82), .operand .indirectX .sax,
   .operand .zeroPage .sty, .operand .zeroPage .sta, .operand .zeroPage .stx, .operand .zeroPage .sax,
   .one .dey, .operand .immediate (.nopTwoByte 0x89), .one .txa, .byte .xaa,
   .operand .absolute .sty, .operand .absolute .sta, .operand .absolute .stx, .operand .absolute .sax]

/-- Opcode bytes 0x90 to 0x9F. -/
def matrixRow9 : List Entry :=
  [.byte .bcc, .operand .indirectY .sta, .one (.kil 0x92), .one (.invalid 0x93),
   .operand .zeroPageX .sty, .operand .zeroPageX .sta, .operand .zeroPageY .stx, .operand .zeroPageY .sax,
   .one .tya, .operand .absoluteY .sta, .one .txs, .one (.invalid 0x9B),
   .one (.invalid 0x9C), .operand .absoluteX .sta, .one (.invalid 0x9E), .one (.invalid 0x9F)]

/-- Opcode bytes 0xA0 to 0xAF. -/
def matrixRowA : List Entry :=
  [.operand .immediate .ldy, .operand .indirectX .lda, .operand .immediate .ldx, .operand .indirectX .lax,
   .operand .zeroPage .ldy, .operand .zeroPage .lda, .operand .zeroPage .ldx, .operand .zeroPage .lax,
   .one .tay, .operand .immediate .lda, .one .tax, .byte .laxImmediate,
   .operand .absolute .ldy, .operand .absolute .lda, .operand .absolute .ldx, .operand .absolute .lax]

/-- Opcode bytes 0xB0 to 0xBF. -/
def matrixRowB : List Entry :=
  [.byte .bcs, .operand .indirectY .lda, .one (.kil 0xB2), .operand .indirectY .lax,
   .operand .zeroPageX .ldy, .operand .zeroPageX .lda, .operand .zeroPageY .ldx, .operand .zeroPageY .lax,
   .one .clv, .operand .absoluteY .lda, .one .tsx, .word .las,
   .operand .absoluteX .ldy, .operand .absoluteX .lda, .operand .absoluteY .ldx, .operand .absoluteY .lax]

/-- Opcode bytes 0xC0 to 0xCF. -/
def matrixRowC : List Entry :=
  [.operand .immediate .cpy, .operand .indirectX .cmp, .operand .immediate (.nopTwoByte 0xC2), .operand .indirectX .dcp,
   .operand .zeroPage .cpy, .operand .zeroPage .cmp, .operand .zeroPage .dec, .operand .zeroPage .dcp,
   .one .iny, .operand .immediate .cmp, .one .dex, .byte .axs,
   .operand .absolute .cpy, .operand .absolute .cmp, .operand .absolute .dec, .operand .absolute .dcp]

/-- Opcode bytes 0xD0 to 0xDF. -/
def matrixRowD : List Entry :=
  [.byte .bne, .operand .indirectY .cmp, .one (.kil 0xD2), .operand .indirectY .dcp,
   .operand .zeroPageX (.nopTwoByte 0xD4), .operand .zeroPageX .cmp, .operand .zeroPageX .dec, .operand .zeroPageX .dcp,
   .one .cld, .operand .absoluteY .cmp, .one (.nopOneByte 0xDA), .operand .absoluteY .dcp,
   .operand .absoluteX (.nopThreeByte 0xDC), .operand .absoluteX .cmp, .operand .absoluteX .dec, .operand .absoluteX .dcp]

/-- Opcode bytes 0xE0 to 0xEF. -/
def matrixRowE : List Entry :=
  [.operand .immediate .cpx, .operand .indirectX .sbc, .operand .immediate (.nopTwoByte 0xE2), .operand .indirectX .isc,
   .operand .zeroPage .cpx, .operand .zeroPage .sbc, .operand .zeroPage .inc, .operand .zeroPage .isc,
   .one .inx, .operand .immediate .sbc, .one .nop, .byte .sbcEB,
   .operand .absolute .cpx, .operand .absolute .sbc, .operand .absolute .inc, .operand .absolute .isc]

/-- Opcode bytes 0xF0 to 0xFF. -/
def matrixRowF : List Entry :=
  [.byte .beq, .operand .indirectY .sbc, .one (.kil 0xF2), .operand .indirectY .isc,
   .operand .zeroPageX (.nopTwoByte 0xF4), .operand .zeroPageX .sbc, .operand .zeroPageX .inc, .operand .zeroPageX .isc,
   .one .sed, .operand .absoluteY .sbc, .one (.nopOneByte 0xFA), .operand .absoluteY .isc,
   .operand .absoluteX (.nopThreeByte 0xFC), .operand .absoluteX .sbc, .operand .absoluteX .inc, .operand .absoluteX .isc]
/-- The opcode matrix (R53, R54, R55), by opcode byte. -/
def opcodeMatrix : List Entry :=
  matrixRow0 ++ matrixRow1 ++ matrixRow2 ++ matrixRow3 ++ matrixRow4 ++ matrixRow5 ++ matrixRow6 ++ matrixRow7 ++
  matrixRow8 ++ matrixRow9 ++ matrixRowA ++ matrixRowB ++ matrixRowC ++ matrixRowD ++ matrixRowE ++ matrixRowF

/-- The decoder: a direct lookup of all eight bits (R52). The matrix has a cell for each of the 256 bytes, so the
default is never taken (`opcodeMatrix_length` in Laws). -/
def entryOf (opcode : Byte) : Entry := opcodeMatrix.getD opcode.toNat (.one (.invalid opcode))

/-- Bytes of the instruction with this opcode byte: 1, 2 or 3 (R50, R59). -/
def Entry.length : Entry → Nat
  | .one _ => 1
  | .byte _ => 2
  | .word _ => 3
  | .operand m _ => m.length

/-- The instruction a cell makes from the two bytes after the opcode, of which it uses as many as it has. -/
def Entry.build (b1 b2 : Byte) : Entry → Instr
  | .one i => i
  | .byte mk => mk b1
  | .word mk => mk (wordOf b2 b1)
  | .operand m mk => mk (m.assemble b1 b2)

/-- The length of the instruction that starts with this opcode byte. -/
def opcodeLength (opcode : Byte) : Nat := (entryOf opcode).length

/-- The instruction of three bytes in ascending address order, of which it uses as many as it has. -/
def decodeBytes (opcode b1 b2 : Byte) : Instr := (entryOf opcode).build b1 b2

/-- Why a list of bytes holds no instruction. No opcode byte is a reason: the decoder is total (R52). -/
inductive DecodeError where
  /-- there is no opcode byte -/
  | noOpcode
  /-- the list ends before the operand bytes its opcode asks for -/
  | operandMissing (opcode : Byte)
  deriving DecidableEq, Repr

/-- Decode the instruction at the head of a list of bytes, and the bytes after it. -/
def decode : List Byte → Except DecodeError (Instr × List Byte)
  | [] => .error .noOpcode
  | opcode :: rest =>
    match opcodeLength opcode, rest with
    | 1, _ => .ok (decodeBytes opcode 0 0, rest)
    | 2, b1 :: rest => .ok (decodeBytes opcode b1 0, rest)
    | 3, b1 :: b2 :: rest => .ok (decodeBytes opcode b1 b2, rest)
    | _, _ => .error (.operandMissing opcode)

/-- The instruction the decoder reads from the bits `w`, of which the opcode table gives the row `nbits`; the bits above
are operand bytes of zero. The first byte is bits 7 to 0, the second bits 15 to 8, the third bits 23 to 16 (R50). -/
def decodeTableWord (nbits w : Nat) : Option Instr :=
  let v := w % 2 ^ nbits
  match decode [byteOfNat v 0, byteOfNat v 1, byteOfNat v 2] with
  | .ok (i, _) => some i
  | .error _ => none

/-! ## Encoder -/

/-- The operand bytes of an operand, in ascending address order (R51). -/
def Operand.bytes : Operand → List Byte
  | .implied | .accumulator => []
  | .immediate b | .zeroPage b | .zeroPageX b | .zeroPageY b | .indirectX b | .indirectY b | .relative b => [b]
  | .absolute w | .absoluteX w | .absoluteY w | .indirect w => [loByte w, hiByte w]

/-- One row of R53 or R54: the byte of each mode the mnemonic has. -/
abbrev MnemonicRow := List (Mode × Byte)

def adcRow : MnemonicRow := [(.immediate, 0x69), (.zeroPage, 0x65), (.zeroPageX, 0x75), (.absolute, 0x6D),
  (.absoluteX, 0x7D), (.absoluteY, 0x79), (.indirectX, 0x61), (.indirectY, 0x71)]
def sbcRow : MnemonicRow := [(.immediate, 0xE9), (.zeroPage, 0xE5), (.zeroPageX, 0xF5), (.absolute, 0xED),
  (.absoluteX, 0xFD), (.absoluteY, 0xF9), (.indirectX, 0xE1), (.indirectY, 0xF1)]
def andRow : MnemonicRow := [(.immediate, 0x29), (.zeroPage, 0x25), (.zeroPageX, 0x35), (.absolute, 0x2D),
  (.absoluteX, 0x3D), (.absoluteY, 0x39), (.indirectX, 0x21), (.indirectY, 0x31)]
def eorRow : MnemonicRow := [(.immediate, 0x49), (.zeroPage, 0x45), (.zeroPageX, 0x55), (.absolute, 0x4D),
  (.absoluteX, 0x5D), (.absoluteY, 0x59), (.indirectX, 0x41), (.indirectY, 0x51)]
def oraRow : MnemonicRow := [(.immediate, 0x09), (.zeroPage, 0x05), (.zeroPageX, 0x15), (.absolute, 0x0D),
  (.absoluteX, 0x1D), (.absoluteY, 0x19), (.indirectX, 0x01), (.indirectY, 0x11)]
def aslRow : MnemonicRow :=
  [(.accumulator, 0x0A), (.zeroPage, 0x06), (.zeroPageX, 0x16), (.absolute, 0x0E), (.absoluteX, 0x1E)]
def lsrRow : MnemonicRow :=
  [(.accumulator, 0x4A), (.zeroPage, 0x46), (.zeroPageX, 0x56), (.absolute, 0x4E), (.absoluteX, 0x5E)]
def rolRow : MnemonicRow :=
  [(.accumulator, 0x2A), (.zeroPage, 0x26), (.zeroPageX, 0x36), (.absolute, 0x2E), (.absoluteX, 0x3E)]
def rorRow : MnemonicRow :=
  [(.accumulator, 0x6A), (.zeroPage, 0x66), (.zeroPageX, 0x76), (.absolute, 0x6E), (.absoluteX, 0x7E)]
def bitRow : MnemonicRow := [(.zeroPage, 0x24), (.absolute, 0x2C)]
def cmpRow : MnemonicRow := [(.immediate, 0xC9), (.zeroPage, 0xC5), (.zeroPageX, 0xD5), (.absolute, 0xCD),
  (.absoluteX, 0xDD), (.absoluteY, 0xD9), (.indirectX, 0xC1), (.indirectY, 0xD1)]
def cpxRow : MnemonicRow := [(.immediate, 0xE0), (.zeroPage, 0xE4), (.absolute, 0xEC)]
def cpyRow : MnemonicRow := [(.immediate, 0xC0), (.zeroPage, 0xC4), (.absolute, 0xCC)]
def ldaRow : MnemonicRow := [(.immediate, 0xA9), (.zeroPage, 0xA5), (.zeroPageX, 0xB5), (.absolute, 0xAD),
  (.absoluteX, 0xBD), (.absoluteY, 0xB9), (.indirectX, 0xA1), (.indirectY, 0xB1)]
def ldxRow : MnemonicRow :=
  [(.immediate, 0xA2), (.zeroPage, 0xA6), (.zeroPageY, 0xB6), (.absolute, 0xAE), (.absoluteY, 0xBE)]
def ldyRow : MnemonicRow :=
  [(.immediate, 0xA0), (.zeroPage, 0xA4), (.zeroPageX, 0xB4), (.absolute, 0xAC), (.absoluteX, 0xBC)]
def staRow : MnemonicRow := [(.zeroPage, 0x85), (.zeroPageX, 0x95), (.absolute, 0x8D), (.absoluteX, 0x9D),
  (.absoluteY, 0x99), (.indirectX, 0x81), (.indirectY, 0x91)]
def stxRow : MnemonicRow := [(.zeroPage, 0x86), (.zeroPageY, 0x96), (.absolute, 0x8E)]
def styRow : MnemonicRow := [(.zeroPage, 0x84), (.zeroPageX, 0x94), (.absolute, 0x8C)]
def incRow : MnemonicRow := [(.zeroPage, 0xE6), (.zeroPageX, 0xF6), (.absolute, 0xEE), (.absoluteX, 0xFE)]
def decRow : MnemonicRow := [(.zeroPage, 0xC6), (.zeroPageX, 0xD6), (.absolute, 0xCE), (.absoluteX, 0xDE)]
def sloRow : MnemonicRow := [(.zeroPage, 0x07), (.zeroPageX, 0x17), (.absolute, 0x0F), (.absoluteX, 0x1F),
  (.absoluteY, 0x1B), (.indirectX, 0x03), (.indirectY, 0x13)]
def rlaRow : MnemonicRow := [(.zeroPage, 0x27), (.zeroPageX, 0x37), (.absolute, 0x2F), (.absoluteX, 0x3F),
  (.absoluteY, 0x3B), (.indirectX, 0x23), (.indirectY, 0x33)]
def sreRow : MnemonicRow := [(.zeroPage, 0x47), (.zeroPageX, 0x57), (.absolute, 0x4F), (.absoluteX, 0x5F),
  (.absoluteY, 0x5B), (.indirectX, 0x43), (.indirectY, 0x53)]
def rraRow : MnemonicRow := [(.zeroPage, 0x67), (.zeroPageX, 0x77), (.absolute, 0x6F), (.absoluteX, 0x7F),
  (.absoluteY, 0x7B), (.indirectX, 0x63), (.indirectY, 0x73)]
def saxRow : MnemonicRow := [(.zeroPage, 0x87), (.zeroPageY, 0x97), (.absolute, 0x8F), (.indirectX, 0x83)]
def laxRow : MnemonicRow := [(.zeroPage, 0xA7), (.zeroPageY, 0xB7), (.absolute, 0xAF), (.absoluteY, 0xBF),
  (.indirectX, 0xA3), (.indirectY, 0xB3)]
def dcpRow : MnemonicRow := [(.zeroPage, 0xC7), (.zeroPageX, 0xD7), (.absolute, 0xCF), (.absoluteX, 0xDF),
  (.absoluteY, 0xDB), (.indirectX, 0xC3), (.indirectY, 0xD3)]
def iscRow : MnemonicRow := [(.zeroPage, 0xE7), (.zeroPageX, 0xF7), (.absolute, 0xEF), (.absoluteX, 0xFF),
  (.absoluteY, 0xFB), (.indirectX, 0xE3), (.indirectY, 0xF3)]

/-- The bytes of a mnemonic with this row and operand; none where the mnemonic has no such mode. -/
def encodeRow (row : MnemonicRow) (o : Operand) : List Byte :=
  match row.lookup o.mode with
  | some opcode => opcode :: o.bytes
  | none => []

/-- The bytes of an instruction in ascending address order (R50 to R55); none for a term that is not well-formed in its
mode. -/
def encode : Instr → List Byte
  | .adc o => encodeRow adcRow o
  | .sbc o => encodeRow sbcRow o
  | .and o => encodeRow andRow o
  | .eor o => encodeRow eorRow o
  | .ora o => encodeRow oraRow o
  | .asl o => encodeRow aslRow o
  | .lsr o => encodeRow lsrRow o
  | .rol o => encodeRow rolRow o
  | .ror o => encodeRow rorRow o
  | .bit o => encodeRow bitRow o
  | .cmp o => encodeRow cmpRow o
  | .cpx o => encodeRow cpxRow o
  | .cpy o => encodeRow cpyRow o
  | .bcc offset => [0x90, offset]
  | .bcs offset => [0xB0, offset]
  | .beq offset => [0xF0, offset]
  | .bne offset => [0xD0, offset]
  | .bmi offset => [0x30, offset]
  | .bpl offset => [0x10, offset]
  | .bvc offset => [0x50, offset]
  | .bvs offset => [0x70, offset]
  | .jmp target => [0x4C, loByte target, hiByte target]
  | .jmpIndirect pointer => [0x6C, loByte pointer, hiByte pointer]
  | .jsr target => [0x20, loByte target, hiByte target]
  | .rts => [0x60]
  | .brk => [0x00]
  | .rti => [0x40]
  | .pha => [0x48]
  | .pla => [0x68]
  | .php => [0x08]
  | .plp => [0x28]
  | .tax => [0xAA]
  | .tay => [0xA8]
  | .tsx => [0xBA]
  | .txa => [0x8A]
  | .tya => [0x98]
  | .txs => [0x9A]
  | .lda o => encodeRow ldaRow o
  | .ldx o => encodeRow ldxRow o
  | .ldy o => encodeRow ldyRow o
  | .sta o => encodeRow staRow o
  | .stx o => encodeRow stxRow o
  | .sty o => encodeRow styRow o
  | .inc o => encodeRow incRow o
  | .dec o => encodeRow decRow o
  | .inx => [0xE8]
  | .iny => [0xC8]
  | .dex => [0xCA]
  | .dey => [0x88]
  | .clc => [0x18]
  | .cld => [0xD8]
  | .cli => [0x58]
  | .clv => [0xB8]
  | .sec => [0x38]
  | .sed => [0xF8]
  | .sei => [0x78]
  | .nop => [0xEA]
  | .slo o => encodeRow sloRow o
  | .rla o => encodeRow rlaRow o
  | .sre o => encodeRow sreRow o
  | .rra o => encodeRow rraRow o
  | .sax o => encodeRow saxRow o
  | .lax o => encodeRow laxRow o
  | .laxImmediate value => [0xAB, value]
  | .dcp o => encodeRow dcpRow o
  | .isc o => encodeRow iscRow o
  | .anc opcode value => [opcode, value]
  | .alr value => [0x4B, value]
  | .arr value => [0x6B, value]
  | .xaa value => [0x8B, value]
  | .axs value => [0xCB, value]
  | .sbcEB value => [0xEB, value]
  | .las base => [0xBB, loByte base, hiByte base]
  | .nopOneByte opcode => [opcode]
  | .nopTwoByte opcode o => opcode :: o.bytes
  | .nopThreeByte opcode o => opcode :: o.bytes
  | .kil opcode => [opcode]
  | .invalid opcode => [opcode]

end Sys2Proof
end

