-- ==== Sys2Proof/Machine/Fetch.lean ====
section
/-! DEFINITION. Fetching an instruction (spec/20_memory.md R34, spec/40_addressing_dispatch.md R84, R87): the opcode byte,
the trace record, then the operand bytes in ascending order. -/

namespace Sys2Proof.Machine

/-- Fetch the operand bytes that the opcode asks for (R50), and make the instruction. -/
def fetchOperands (op : Byte) (s : State) : Instr × State :=
  match opcodeLength op with
  | 1 => (decodeBytes op 0 0, s)
  | 2 =>
    let b1 := fetch8 s
    (decodeBytes op b1.1 0, b1.2)
  | _ =>
    let b1 := fetch8 s
    let b2 := fetch8 b1.2
    (decodeBytes op b1.1 b2.1, b2.2)

/-- The first part of a step while Running: the outputs start empty, the opcode is fetched, its trace record emitted, its
operand bytes fetched. The state after has PC past the instruction. -/
def fetchInstr (s : State) : Instr × State :=
  let op := fetch8 s.clearOutput
  fetchOperands op.1 (op.2.emitTrace s.pc op.1)

end Sys2Proof.Machine
end

