-- ==== Sys2Proof/Machine/Step.lean ====
section
/-! DEFINITION. `step` (spec/40_addressing_dispatch.md R84, R86), and the placing of one instruction where it fetches. -/

namespace Sys2Proof.Machine

/-- One step: an instruction while Running (R84); no access and no change while Halted or Faulted (R86). -/
def step (s : State) : Host.Outcome State Fault Refusal :=
  match s.run with
  | .running => exec (fetchInstr s).1 (fetchInstr s).2
  | .halted => .next (s.idle .halted)
  | .faulted => .next (s.idle .faulted)

/-- `s` with the instruction of the bits `w` (the table's `nbits`, the bits above zero) at PC, the bus plain RAM, and
Running, so that the next step runs it (log entry 8). -/
def State.withFetchWord (s : State) (nbits w : Nat) : State :=
  let v := w % 2 ^ nbits
  { s.placeAtPc (byteOfNat v 0) (byteOfNat v 1) (byteOfNat v 2) with
    run := .running
    bus := { s.bus with regions := [] } }

end Sys2Proof.Machine
end

