-- ==== Sys2Proof/Safety.lean ====
section
/-! DEFINITION. What counts as a safe run, the invariant of the machine, and the terms the claims use: the operand of an
instruction as a pure function of the state and what its bus answers, the write table R21, the stored addresses, the cycle
table. -/

namespace Sys2Proof.Machine

/-! ## Safe runs and the invariant -/

/-- A state of a safe run: CORE has not latched an invalid opcode, which is never a normal end of a program (R221). -/
def State.Safe (s : State) : Prop := s.run ≠ .faulted

/-- The invariant: memory is in canonical form, stored B is 0 and stored U is 1 (R17). -/
structure State.Inv (s : State) : Prop where
  mem : s.mem.wf = true
  b : s.p.b = false
  u : s.p.u = true

/-! ## The operand as a pure function of the state (R70 to R82) -/

/-- The word that two reads on the bus make, the low byte first, then the high byte. -/
def State.word (s : State) (low high : Addr) : Addr := wordOf (s.answer 1 high) (s.answer 0 low)

/-- The word a zero-page pointer holds (R33). -/
def State.wordZP (s : State) (zp : Byte) : Addr := s.word (zext16 zp) (zext16 (zp + 1))

/-- The effective address of an operand. -/
def effectiveAddr (o : Operand) (s : State) : Option Addr :=
  match o with
  | .implied | .accumulator | .immediate _ | .relative _ => none
  | .zeroPage a => some (zext16 a)
  | .zeroPageX a => some (zext16 (a + s.x))
  | .zeroPageY a => some (zext16 (a + s.y))
  | .absolute a => some a
  | .absoluteX base => some (base + zext16 s.x)
  | .absoluteY base => some (base + zext16 s.y)
  | .indirectX zp => some (s.wordZP (zp + s.x))
  | .indirectY zp => some (s.wordZP zp + zext16 s.y)
  | .indirect pointer => some (s.word pointer (indirectHighAddr pointer))

/-- The value of an operand: the read at the effective address is the first one, or the third after a pointer's two. -/
def operandValue (o : Operand) (s : State) : Byte :=
  match o with
  | .implied | .accumulator => s.a
  | .immediate v | .relative v => v
  | .indirect _ => 0
  | .zeroPage _ | .zeroPageX _ | .zeroPageY _ | .absolute _ | .absoluteX _ | .absoluteY _ =>
    ((effectiveAddr o s).map (s.answer 0)).getD 0
  | .indirectX _ | .indirectY _ => ((effectiveAddr o s).map (s.answer 2)).getD 0

/-- Whether resolving an operand reports a page crossing: absolute indexed modes only. -/
def pageCrossed (o : Operand) (s : State) : Bool :=
  match o with
  | .absoluteX base => hiByte (base + zext16 s.x) != hiByte base
  | .absoluteY base => hiByte (base + zext16 s.y) != hiByte base
  | .implied | .accumulator | .immediate _ | .relative _ | .zeroPage _ | .zeroPageX _ | .zeroPageY _ | .absolute _
  | .indirectX _ | .indirectY _ | .indirect _ => false

/-- The addresses resolving an operand reads, in order (R88, after the instruction's own bytes). -/
def operandReadAddrs (o : Operand) (s : State) : List Addr :=
  match o with
  | .implied | .accumulator | .immediate _ | .relative _ => []
  | .zeroPage _ | .zeroPageX _ | .zeroPageY _ | .absolute _ | .absoluteX _ | .absoluteY _ => (effectiveAddr o s).toList
  | .indirectX zp => [zext16 (zp + s.x), zext16 (zp + s.x + 1)] ++ (effectiveAddr o s).toList
  | .indirectY zp => [zext16 zp, zext16 (zp + 1)] ++ (effectiveAddr o s).toList
  | .indirect pointer => [pointer, indirectHighAddr pointer]

/-- Reads of these addresses, one after the other, the first after `k` more reads. -/
def readsFrom (s : State) : Nat → List Addr → List BusAccess
  | _, [] => []
  | k, a :: rest => .read a (s.answer k a) :: readsFrom s (k + 1) rest

/-- Reads of these addresses, one after the other. -/
def readsOf (s : State) (addrs : List Addr) : List BusAccess := readsFrom s 0 addrs

/-- A state after reads of these addresses: they are recorded, and the bus has answered that many more. -/
def State.afterReads (addrs : List Addr) (s : State) : State :=
  { s with
    bus := { s.bus with reads := s.bus.reads + addrs.length }
    out := { s.out with accesses := s.out.accesses ++ readsOf s addrs } }

end Sys2Proof.Machine

namespace Sys2Proof

/-! ## An instruction's operand, and what it writes (R21) -/

/-- The operand through which an instruction is dispatched (the mode column of the opcode table). -/
def Instr.operand : Instr → Operand
  | .adc o | .sbc o | .and o | .eor o | .ora o | .asl o | .lsr o | .rol o | .ror o | .bit o | .cmp o | .cpx o | .cpy o => o
  | .lda o | .ldx o | .ldy o | .sta o | .stx o | .sty o | .inc o | .dec o => o
  | .slo o | .rla o | .sre o | .rra o | .sax o | .lax o | .dcp o | .isc o => o
  | .nopTwoByte _ o | .nopThreeByte _ o => o
  | .bcc b | .bcs b | .beq b | .bne b | .bmi b | .bpl b | .bvc b | .bvs b => .relative b
  | .jmp w | .jsr w => .absolute w
  | .jmpIndirect w => .indirect w
  | .laxImmediate v | .anc _ v | .alr v | .arr v | .xaa v | .axs v | .sbcEB v => .immediate v
  | .las w => .absoluteY w
  | .rts | .brk | .rti | .pha | .pla | .php | .plp | .tax | .tay | .tsx | .txa | .tya | .txs => .implied
  | .inx | .iny | .dex | .dey | .clc | .cld | .cli | .clv | .sec | .sed | .sei | .nop => .implied
  | .nopOneByte _ | .kil _ | .invalid _ => .implied

/-- Column A of R21. -/
def Instr.writesA : Instr → Bool
  | .adc _ | .sbc _ | .sbcEB _ | .and _ | .eor _ | .ora _ | .lda _ | .pla | .txa | .tya => true
  | .asl o | .lsr o | .rol o | .ror o => o.mode == .accumulator
  | .slo _ | .sre _ | .rla _ | .rra _ | .isc _ | .lax _ | .laxImmediate _ | .anc _ _ | .alr _ | .arr _ | .xaa _ | .las _ => true
  | .bit _ | .cmp _ | .cpx _ | .cpy _ | .bcc _ | .bcs _ | .beq _ | .bne _ | .bmi _ | .bpl _ | .bvc _
  | .bvs _ | .jmp _ | .jmpIndirect _ | .jsr _ | .rts | .brk | .rti | .pha | .php | .plp | .tax | .tay
  | .tsx | .txs | .ldx _ | .ldy _ | .sta _ | .stx _ | .sty _ | .inc _ | .dec _ | .inx | .iny | .dex | .dey
  | .clc | .cld | .cli | .clv | .sec | .sed | .sei | .nop | .sax _ | .dcp _ | .axs _ | .nopOneByte _
  | .nopTwoByte _ _ | .nopThreeByte _ _ | .kil _ | .invalid _ => false

/-- Column X of R21. -/
def Instr.writesX : Instr → Bool
  | .ldx _ | .tax | .tsx | .inx | .dex | .lax _ | .laxImmediate _ | .axs _ | .las _ => true
  | .adc _ | .sbc _ | .and _ | .eor _ | .ora _ | .asl _ | .lsr _ | .rol _ | .ror _ | .bit _ | .cmp _
  | .cpx _ | .cpy _ | .bcc _ | .bcs _ | .beq _ | .bne _ | .bmi _ | .bpl _ | .bvc _ | .bvs _ | .jmp _
  | .jmpIndirect _ | .jsr _ | .rts | .brk | .rti | .pha | .pla | .php | .plp | .tay | .txa | .tya | .txs
  | .lda _ | .ldy _ | .sta _ | .stx _ | .sty _ | .inc _ | .dec _ | .iny | .dey | .clc | .cld | .cli | .clv
  | .sec | .sed | .sei | .nop | .slo _ | .rla _ | .sre _ | .rra _ | .sax _ | .dcp _ | .isc _ | .anc _ _
  | .alr _ | .arr _ | .xaa _ | .sbcEB _ | .nopOneByte _ | .nopTwoByte _ _ | .nopThreeByte _ _ | .kil _
  | .invalid _ => false

/-- Column Y of R21. -/
def Instr.writesY : Instr → Bool
  | .ldy _ | .tay | .iny | .dey => true
  | .adc _ | .sbc _ | .and _ | .eor _ | .ora _ | .asl _ | .lsr _ | .rol _ | .ror _ | .bit _ | .cmp _
  | .cpx _ | .cpy _ | .bcc _ | .bcs _ | .beq _ | .bne _ | .bmi _ | .bpl _ | .bvc _ | .bvs _ | .jmp _
  | .jmpIndirect _ | .jsr _ | .rts | .brk | .rti | .pha | .pla | .php | .plp | .tax | .tsx | .txa | .tya
  | .txs | .lda _ | .ldx _ | .sta _ | .stx _ | .sty _ | .inc _ | .dec _ | .inx | .dex | .clc | .cld | .cli
  | .clv | .sec | .sed | .sei | .nop | .slo _ | .rla _ | .sre _ | .rra _ | .sax _ | .lax _
  | .laxImmediate _ | .dcp _ | .isc _ | .anc _ _ | .alr _ | .arr _ | .xaa _ | .axs _ | .sbcEB _ | .las _
  | .nopOneByte _ | .nopTwoByte _ _ | .nopThreeByte _ _ | .kil _ | .invalid _ => false

/-- Column SP of R21. -/
def Instr.writesSP : Instr → Bool
  | .txs | .pha | .php | .pla | .plp | .jsr _ | .rts | .brk | .rti | .las _ => true
  | .adc _ | .sbc _ | .and _ | .eor _ | .ora _ | .asl _ | .lsr _ | .rol _ | .ror _ | .bit _ | .cmp _
  | .cpx _ | .cpy _ | .bcc _ | .bcs _ | .beq _ | .bne _ | .bmi _ | .bpl _ | .bvc _ | .bvs _ | .jmp _
  | .jmpIndirect _ | .tax | .tay | .tsx | .txa | .tya | .lda _ | .ldx _ | .ldy _ | .sta _ | .stx _ | .sty _
  | .inc _ | .dec _ | .inx | .iny | .dex | .dey | .clc | .cld | .cli | .clv | .sec | .sed | .sei | .nop
  | .slo _ | .rla _ | .sre _ | .rra _ | .sax _ | .lax _ | .laxImmediate _ | .dcp _ | .isc _ | .anc _ _
  | .alr _ | .arr _ | .xaa _ | .axs _ | .sbcEB _ | .nopOneByte _ | .nopTwoByte _ _ | .nopThreeByte _ _
  | .kil _ | .invalid _ => false

/-- Columns N and Z of R21, which differ nowhere. -/
def Instr.writesNZ : Instr → Bool
  | .adc _ | .sbc _ | .sbcEB _ | .and _ | .eor _ | .ora _ | .asl _ | .lsr _ | .rol _ | .ror _ | .bit _ => true
  | .cmp _ | .cpx _ | .cpy _ | .lda _ | .pla | .txa | .tya | .ldx _ | .tax | .tsx | .inx | .dex => true
  | .ldy _ | .tay | .iny | .dey | .inc _ | .dec _ | .plp | .rti => true
  | .slo _ | .sre _ | .rla _ | .rra _ | .isc _ | .dcp _ | .lax _ | .laxImmediate _ => true
  | .anc _ _ | .alr _ | .arr _ | .xaa _ | .axs _ | .las _ => true
  | .bcc _ | .bcs _ | .beq _ | .bne _ | .bmi _ | .bpl _ | .bvc _ | .bvs _ | .jmp _ | .jmpIndirect _
  | .jsr _ | .rts | .brk | .pha | .php | .txs | .sta _ | .stx _ | .sty _ | .clc | .cld | .cli | .clv | .sec
  | .sed | .sei | .nop | .sax _ | .nopOneByte _ | .nopTwoByte _ _ | .nopThreeByte _ _ | .kil _ | .invalid _ => false

/-- Column V of R21. -/
def Instr.writesV : Instr → Bool
  | .adc _ | .sbc _ | .sbcEB _ | .bit _ | .plp | .rti | .clv | .rra _ | .isc _ | .arr _ => true
  | .and _ | .eor _ | .ora _ | .asl _ | .lsr _ | .rol _ | .ror _ | .cmp _ | .cpx _ | .cpy _ | .bcc _
  | .bcs _ | .beq _ | .bne _ | .bmi _ | .bpl _ | .bvc _ | .bvs _ | .jmp _ | .jmpIndirect _ | .jsr _ | .rts
  | .brk | .pha | .pla | .php | .tax | .tay | .tsx | .txa | .tya | .txs | .lda _ | .ldx _ | .ldy _ | .sta _
  | .stx _ | .sty _ | .inc _ | .dec _ | .inx | .iny | .dex | .dey | .clc | .cld | .cli | .sec | .sed | .sei
  | .nop | .slo _ | .rla _ | .sre _ | .sax _ | .lax _ | .laxImmediate _ | .dcp _ | .anc _ _ | .alr _
  | .xaa _ | .axs _ | .las _ | .nopOneByte _ | .nopTwoByte _ _ | .nopThreeByte _ _ | .kil _ | .invalid _ => false

/-- Column C of R21. -/
def Instr.writesC : Instr → Bool
  | .adc _ | .sbc _ | .sbcEB _ | .asl _ | .lsr _ | .rol _ | .ror _ | .cmp _ | .cpx _ | .cpy _ | .plp | .rti | .clc | .sec => true
  | .slo _ | .sre _ | .rla _ | .rra _ | .isc _ | .dcp _ | .anc _ _ | .alr _ | .arr _ | .axs _ => true
  | .and _ | .eor _ | .ora _ | .bit _ | .bcc _ | .bcs _ | .beq _ | .bne _ | .bmi _ | .bpl _ | .bvc _
  | .bvs _ | .jmp _ | .jmpIndirect _ | .jsr _ | .rts | .brk | .pha | .pla | .php | .tax | .tay | .tsx
  | .txa | .tya | .txs | .lda _ | .ldx _ | .ldy _ | .sta _ | .stx _ | .sty _ | .inc _ | .dec _ | .inx
  | .iny | .dex | .dey | .cld | .cli | .clv | .sed | .sei | .nop | .sax _ | .lax _ | .laxImmediate _
  | .xaa _ | .las _ | .nopOneByte _ | .nopTwoByte _ _ | .nopThreeByte _ _ | .kil _ | .invalid _ => false

/-- Column I of R21. -/
def Instr.writesI : Instr → Bool
  | .plp | .rti | .cli | .sei => true
  | .adc _ | .sbc _ | .and _ | .eor _ | .ora _ | .asl _ | .lsr _ | .rol _ | .ror _ | .bit _ | .cmp _
  | .cpx _ | .cpy _ | .bcc _ | .bcs _ | .beq _ | .bne _ | .bmi _ | .bpl _ | .bvc _ | .bvs _ | .jmp _
  | .jmpIndirect _ | .jsr _ | .rts | .brk | .pha | .pla | .php | .tax | .tay | .tsx | .txa | .tya | .txs
  | .lda _ | .ldx _ | .ldy _ | .sta _ | .stx _ | .sty _ | .inc _ | .dec _ | .inx | .iny | .dex | .dey
  | .clc | .cld | .clv | .sec | .sed | .nop | .slo _ | .rla _ | .sre _ | .rra _ | .sax _ | .lax _
  | .laxImmediate _ | .dcp _ | .isc _ | .anc _ _ | .alr _ | .arr _ | .xaa _ | .axs _ | .sbcEB _ | .las _
  | .nopOneByte _ | .nopTwoByte _ _ | .nopThreeByte _ _ | .kil _ | .invalid _ => false

/-- Column D of R21. -/
def Instr.writesD : Instr → Bool
  | .plp | .rti | .cld | .sed => true
  | .adc _ | .sbc _ | .and _ | .eor _ | .ora _ | .asl _ | .lsr _ | .rol _ | .ror _ | .bit _ | .cmp _
  | .cpx _ | .cpy _ | .bcc _ | .bcs _ | .beq _ | .bne _ | .bmi _ | .bpl _ | .bvc _ | .bvs _ | .jmp _
  | .jmpIndirect _ | .jsr _ | .rts | .brk | .pha | .pla | .php | .tax | .tay | .tsx | .txa | .tya | .txs
  | .lda _ | .ldx _ | .ldy _ | .sta _ | .stx _ | .sty _ | .inc _ | .dec _ | .inx | .iny | .dex | .dey
  | .clc | .cli | .clv | .sec | .sei | .nop | .slo _ | .rla _ | .sre _ | .rra _ | .sax _ | .lax _
  | .laxImmediate _ | .dcp _ | .isc _ | .anc _ _ | .alr _ | .arr _ | .xaa _ | .axs _ | .sbcEB _ | .las _
  | .nopOneByte _ | .nopTwoByte _ _ | .nopThreeByte _ _ | .kil _ | .invalid _ => false

/-- The instructions that pull the flags, the only ones that write B and U (R16, R21). -/
def Instr.pullsFlags : Instr → Bool
  | .plp | .rti => true
  | .adc _ | .sbc _ | .and _ | .eor _ | .ora _ | .asl _ | .lsr _ | .rol _ | .ror _ | .bit _ | .cmp _
  | .cpx _ | .cpy _ | .bcc _ | .bcs _ | .beq _ | .bne _ | .bmi _ | .bpl _ | .bvc _ | .bvs _ | .jmp _
  | .jmpIndirect _ | .jsr _ | .rts | .brk | .pha | .pla | .php | .tax | .tay | .tsx | .txa | .tya | .txs
  | .lda _ | .ldx _ | .ldy _ | .sta _ | .stx _ | .sty _ | .inc _ | .dec _ | .inx | .iny | .dex | .dey
  | .clc | .cld | .cli | .clv | .sec | .sed | .sei | .nop | .slo _ | .rla _ | .sre _ | .rra _ | .sax _
  | .lax _ | .laxImmediate _ | .dcp _ | .isc _ | .anc _ _ | .alr _ | .arr _ | .xaa _ | .axs _ | .sbcEB _
  | .las _ | .nopOneByte _ | .nopTwoByte _ _ | .nopThreeByte _ _ | .kil _ | .invalid _ => false

/-- The instructions that push the flags (R15). -/
def Instr.pushesFlags : Instr → Bool
  | .php | .brk => true
  | .adc _ | .sbc _ | .and _ | .eor _ | .ora _ | .asl _ | .lsr _ | .rol _ | .ror _ | .bit _ | .cmp _
  | .cpx _ | .cpy _ | .bcc _ | .bcs _ | .beq _ | .bne _ | .bmi _ | .bpl _ | .bvc _ | .bvs _ | .jmp _
  | .jmpIndirect _ | .jsr _ | .rts | .rti | .pha | .pla | .plp | .tax | .tay | .tsx | .txa | .tya | .txs
  | .lda _ | .ldx _ | .ldy _ | .sta _ | .stx _ | .sty _ | .inc _ | .dec _ | .inx | .iny | .dex | .dey
  | .clc | .cld | .cli | .clv | .sec | .sed | .sei | .nop | .slo _ | .rla _ | .sre _ | .rra _ | .sax _
  | .lax _ | .laxImmediate _ | .dcp _ | .isc _ | .anc _ _ | .alr _ | .arr _ | .xaa _ | .axs _ | .sbcEB _
  | .las _ | .nopOneByte _ | .nopTwoByte _ _ | .nopThreeByte _ _ | .kil _ | .invalid _ => false

/-- The instructions whose routine writes PC (spec/42_control_flow.md). -/
def Instr.writesPC : Instr → Bool
  | .bcc _ | .bcs _ | .beq _ | .bne _ | .bmi _ | .bpl _ | .bvc _ | .bvs _ => true
  | .jmp _ | .jmpIndirect _ | .jsr _ | .rts | .brk | .rti => true
  | .adc _ | .sbc _ | .and _ | .eor _ | .ora _ | .asl _ | .lsr _ | .rol _ | .ror _ | .bit _ | .cmp _
  | .cpx _ | .cpy _ | .pha | .pla | .php | .plp | .tax | .tay | .tsx | .txa | .tya | .txs | .lda _ | .ldx _
  | .ldy _ | .sta _ | .stx _ | .sty _ | .inc _ | .dec _ | .inx | .iny | .dex | .dey | .clc | .cld | .cli
  | .clv | .sec | .sed | .sei | .nop | .slo _ | .rla _ | .sre _ | .rra _ | .sax _ | .lax _
  | .laxImmediate _ | .dcp _ | .isc _ | .anc _ _ | .alr _ | .arr _ | .xaa _ | .axs _ | .sbcEB _ | .las _
  | .nopOneByte _ | .nopTwoByte _ _ | .nopThreeByte _ _ | .kil _ | .invalid _ => false

end Sys2Proof

namespace Sys2Proof.Machine

/-- The addresses an instruction stores to (column memory of R21), in the order of the writes: the effective address of
its operand, or the stack addresses of its pushes. -/
def storedAddrs (i : Instr) (s : State) : List Addr :=
  match i with
  | .sta o | .stx o | .sty o | .sax o | .inc o | .dec o => (resolve o s).1.ea.toList
  | .asl o | .lsr o | .rol o | .ror o => (resolve o s).1.ea.toList
  | .slo o | .rla o | .sre o | .rra o | .dcp o | .isc o => (resolve o s).1.ea.toList
  | .pha | .php => [stackAddr s.sp]
  | .jsr _ => [stackAddr s.sp, stackAddr (s.sp - 1)]
  | .brk => [stackAddr s.sp, stackAddr (s.sp - 1), stackAddr (s.sp - 2)]
  | .adc _ | .sbc _ | .and _ | .eor _ | .ora _ | .bit _ | .cmp _ | .cpx _ | .cpy _ | .bcc _ | .bcs _
  | .beq _ | .bne _ | .bmi _ | .bpl _ | .bvc _ | .bvs _ | .jmp _ | .jmpIndirect _ | .rts | .rti | .pla
  | .plp | .tax | .tay | .tsx | .txa | .tya | .txs | .lda _ | .ldx _ | .ldy _ | .inx | .iny | .dex | .dey
  | .clc | .cld | .cli | .clv | .sec | .sed | .sei | .nop | .lax _ | .laxImmediate _ | .anc _ _ | .alr _
  | .arr _ | .xaa _ | .axs _ | .sbcEB _ | .las _ | .nopOneByte _ | .nopTwoByte _ _ | .nopThreeByte _ _
  | .kil _ | .invalid _ => []

/-- The addresses an instruction's routine reads, in order (R88, routine accesses). -/
def routineReadAddrs (i : Instr) (s : State) : List Addr :=
  match i with
  | .pla | .plp => [stackAddr (s.sp + 1)]
  | .rts => [stackAddr (s.sp + 1), stackAddr (s.sp + 2)]
  | .rti => [stackAddr (s.sp + 1), stackAddr (s.sp + 2), stackAddr (s.sp + 3)]
  | .brk => [0xFFFE, 0xFFFF]
  | .adc _ | .sbc _ | .and _ | .eor _ | .ora _ | .asl _ | .lsr _ | .rol _ | .ror _ | .bit _ | .cmp _
  | .cpx _ | .cpy _ | .bcc _ | .bcs _ | .beq _ | .bne _ | .bmi _ | .bpl _ | .bvc _ | .bvs _ | .jmp _
  | .jmpIndirect _ | .jsr _ | .pha | .php | .tax | .tay | .tsx | .txa | .tya | .txs | .lda _ | .ldx _
  | .ldy _ | .sta _ | .stx _ | .sty _ | .inc _ | .dec _ | .inx | .iny | .dex | .dey | .clc | .cld | .cli
  | .clv | .sec | .sed | .sei | .nop | .slo _ | .rla _ | .sre _ | .rra _ | .sax _ | .lax _
  | .laxImmediate _ | .dcp _ | .isc _ | .anc _ _ | .alr _ | .arr _ | .xaa _ | .axs _ | .sbcEB _ | .las _
  | .nopOneByte _ | .nopTwoByte _ _ | .nopThreeByte _ _ | .kil _ | .invalid _ => []

/-! ## Transactions without their data -/

/-- Which way a transaction went, and its address. -/
inductive AccessKind where
  | readAt (address : Addr)
  | writeAt (address : Addr)
  deriving DecidableEq, Repr

/-- A transaction without its data. -/
def BusAccess.kind : BusAccess → AccessKind
  | .read a _ => .readAt a
  | .write a _ => .writeAt a

/-! ## Cycle costs -/

/-- `base_cycles` of spec/opcode_table.json, by opcode byte (R57). -/
def tableBaseCycles : List Nat :=
  [7, 6, 0, 8, 3, 3, 5, 5, 3, 2, 2, 2, 4, 4, 6, 6] ++
  [2, 5, 0, 8, 4, 4, 6, 6, 2, 4, 2, 7, 4, 4, 7, 7] ++
  [6, 6, 0, 8, 3, 3, 5, 5, 4, 2, 2, 2, 4, 4, 6, 6] ++
  [2, 5, 0, 8, 4, 4, 6, 6, 2, 4, 2, 7, 4, 4, 7, 7] ++
  [6, 6, 0, 8, 3, 3, 5, 5, 3, 2, 2, 2, 3, 4, 6, 6] ++
  [2, 5, 0, 8, 4, 4, 6, 6, 2, 4, 2, 7, 4, 4, 7, 7] ++
  [6, 6, 0, 8, 3, 3, 5, 5, 4, 2, 2, 2, 5, 4, 6, 6] ++
  [2, 5, 0, 8, 4, 4, 6, 6, 2, 4, 2, 7, 4, 4, 7, 7] ++
  [2, 6, 2, 6, 3, 3, 3, 3, 2, 2, 2, 2, 4, 4, 4, 4] ++
  [2, 6, 0, 0, 4, 4, 4, 4, 2, 5, 2, 0, 0, 5, 0, 0] ++
  [2, 6, 2, 6, 3, 3, 3, 3, 2, 2, 2, 2, 4, 4, 4, 4] ++
  [2, 5, 0, 5, 4, 4, 4, 4, 2, 4, 2, 4, 4, 4, 4, 4] ++
  [2, 6, 2, 8, 3, 3, 5, 5, 2, 2, 2, 2, 4, 4, 6, 6] ++
  [2, 5, 0, 8, 4, 4, 6, 6, 2, 4, 2, 7, 4, 4, 7, 7] ++
  [2, 6, 2, 8, 3, 3, 5, 5, 2, 2, 2, 2, 4, 4, 6, 6] ++
  [2, 5, 0, 8, 4, 4, 6, 6, 2, 4, 2, 7, 4, 4, 7, 7]

/-- `page_cross_extra` of spec/opcode_table.json, by opcode byte (R57). -/
def tableCrossExtra : List Nat :=
  [0, 0, 0, 0, 0, 0, 0, 0, 0, 0, 0, 0, 0, 0, 0, 0] ++
  [0, 1, 0, 0, 0, 0, 0, 0, 0, 1, 0, 0, 1, 1, 0, 0] ++
  [0, 0, 0, 0, 0, 0, 0, 0, 0, 0, 0, 0, 0, 0, 0, 0] ++
  [0, 1, 0, 0, 0, 0, 0, 0, 0, 1, 0, 0, 1, 1, 0, 0] ++
  [0, 0, 0, 0, 0, 0, 0, 0, 0, 0, 0, 0, 0, 0, 0, 0] ++
  [0, 1, 0, 0, 0, 0, 0, 0, 0, 1, 0, 0, 1, 1, 0, 0] ++
  [0, 0, 0, 0, 0, 0, 0, 0, 0, 0, 0, 0, 0, 0, 0, 0] ++
  [0, 1, 0, 0, 0, 0, 0, 0, 0, 1, 0, 0, 1, 1, 0, 0] ++
  [0, 0, 0, 0, 0, 0, 0, 0, 0, 0, 0, 0, 0, 0, 0, 0] ++
  [0, 0, 0, 0, 0, 0, 0, 0, 0, 0, 0, 0, 0, 0, 0, 0] ++
  [0, 0, 0, 0, 0, 0, 0, 0, 0, 0, 0, 0, 0, 0, 0, 0] ++
  [0, 1, 0, 1, 0, 0, 0, 0, 0, 1, 0, 1, 1, 1, 1, 1] ++
  [0, 0, 0, 0, 0, 0, 0, 0, 0, 0, 0, 0, 0, 0, 0, 0] ++
  [0, 1, 0, 0, 0, 0, 0, 0, 0, 1, 0, 0, 1, 1, 0, 0] ++
  [0, 0, 0, 0, 0, 0, 0, 0, 0, 0, 0, 0, 0, 0, 0, 0] ++
  [0, 1, 0, 0, 0, 0, 0, 0, 0, 1, 0, 0, 1, 1, 0, 0]

/-- Whether a branch's condition holds (R121 to R128). -/
def branchTaken (i : Instr) (p : Flags) : Bool :=
  match i with
  | .bcc _ => !p.c
  | .bcs _ => p.c
  | .beq _ => p.z
  | .bne _ => !p.z
  | .bmi _ => p.n
  | .bpl _ => !p.n
  | .bvc _ => !p.v
  | .bvs _ => p.v
  | .adc _ | .sbc _ | .and _ | .eor _ | .ora _ | .asl _ | .lsr _ | .rol _ | .ror _ | .bit _ | .cmp _
  | .cpx _ | .cpy _ | .jmp _ | .jmpIndirect _ | .jsr _ | .rts | .brk | .rti | .pha | .pla | .php | .plp
  | .tax | .tay | .tsx | .txa | .tya | .txs | .lda _ | .ldx _ | .ldy _ | .sta _ | .stx _ | .sty _ | .inc _
  | .dec _ | .inx | .iny | .dex | .dey | .clc | .cld | .cli | .clv | .sec | .sed | .sei | .nop | .slo _
  | .rla _ | .sre _ | .rra _ | .sax _ | .lax _ | .laxImmediate _ | .dcp _ | .isc _ | .anc _ _ | .alr _
  | .arr _ | .xaa _ | .axs _ | .sbcEB _ | .las _ | .nopOneByte _ | .nopTwoByte _ _ | .nopThreeByte _ _
  | .kil _ | .invalid _ => false

/-- A branch offset as an integer, -128 to 127 (R51, R120). -/
def branchOffset (offset : Byte) : Int := if offset.toNat < 128 then offset.toNat else (offset.toNat : Int) - 256

/-- The target of a branch whose next instruction is at `pc` (R120). -/
def branchTarget (pc : Addr) (offset : Byte) : Addr := BitVec.ofInt 16 ((pc.toNat : Int) + branchOffset offset)

/-- The extra cycles a branch returns: 0 not taken, 1 taken in the page of `pc`, 2 taken to another page (R120). -/
def branchExtra (taken : Bool) (pc : Addr) (offset : Byte) : Nat :=
  if taken then (if (branchTarget pc offset).toNat / 256 = pc.toNat / 256 then 1 else 2) else 0

end Sys2Proof.Machine
end

