-- ==== Sys2Proof/Certificates/Slice0/Obligations.lean ====
section
/-! DEFINITION. The statements about CORE, from the numbered rules of spec/. The words they use come first: results are
written in integers, from the rule's own text, and a whole next state is written as the state before with the named fields
changed, so that each result statement says what the instruction leaves unchanged too. -/

namespace Sys2Proof.Claims

open Sys2Proof.Machine

/-- The mnemonic `mk` has the modes of `row` and no others, and in each the opcode byte the row gives it, followed by the
operand bytes. -/
def HasEncodings (mk : Operand → Instr) (row : List (Mode × Byte)) : Prop :=
  ∀ o : Operand, ((mk o).wf = true ↔ o.mode ∈ row.map Prod.fst) ∧
    ∀ opcode : Byte, (o.mode, opcode) ∈ row → encode (mk o) = opcode :: o.bytes

/-- `s` after the operand reads of `o` and the completion of an instruction that costs `cycles`: only outputs and the count
of the bus's reads differ. -/
def done (o : Operand) (cycles : Nat) (s : State) : State :=
  let t := s.afterReads (operandReadAddrs o s)
  { t with out := { t.out with status := .ok, cycles := cycles } }

/-- `s` after one write on the bus: the byte of memory behind the address, and the recorded transaction. -/
def wrote (a : Addr) (v : Byte) (s : State) : State :=
  { s with
    mem := s.bus.store a v s.mem
    out := { s.out with accesses := s.out.accesses ++ [.write a v] } }

/-- `s` after one read on the bus: only the recorded transaction and the count of the bus's reads differ. -/
def didRead (a : Addr) (s : State) : State := s.afterReads [a]

/-- The cost of a read instruction: the count of its mode, one more on a page crossing. -/
def readCost (o : Operand) (s : State) : Nat := readCycles o.mode + (if pageCrossed o s then 1 else 0)

/-- N and Z from a byte: its sign, and whether it is zero. -/
def nz (v : Byte) (p : Flags) : Flags := { p with n := decide (128 ≤ v.toNat), z := decide (v.toNat = 0) }

/-- An integer that does not fit a signed byte. -/
def overflows (x : Int) : Bool := decide (x < -128 ∨ 127 < x)

/-- A plus `m` plus `c`: the sum modulo 256 in A; C the unsigned carry, V the signed overflow. -/
def added (m : Byte) (c : Bool) (s : State) : State :=
  let sum := s.a.toNat + m.toNat + c.toNat
  { s with
    a := BitVec.ofNat 8 sum
    p := { nz (BitVec.ofNat 8 sum) s.p with
      c := decide (sum > 255), v := overflows (s.a.toInt + m.toInt + (c.toNat : Int)) } }

/-- A minus `m` minus the borrow `1 - C`: the difference modulo 256 in A; C is 1 when there was no borrow, V the signed
overflow. -/
def subtracted (m : Byte) (s : State) : State :=
  let borrow := 1 - s.p.c.toNat
  let diff : Int := (s.a.toNat : Int) - m.toNat - borrow
  { s with
    a := BitVec.ofInt 8 diff
    p := { nz (BitVec.ofInt 8 diff) s.p with
      c := decide (s.a.toNat ≥ m.toNat + borrow), v := overflows (s.a.toInt - m.toInt - (borrow : Int)) } }

/-- The flags of comparing the register value `r` with `m`. -/
def compared (r m : Byte) (p : Flags) : Flags :=
  { nz (BitVec.ofInt 8 ((r.toNat : Int) - m.toNat)) p with c := decide (r.toNat ≥ m.toNat), z := decide (r.toNat = m.toNat) }

/-- The byte ASL makes. -/
def shiftedLeft (v : Byte) (low : Bool) : Byte := BitVec.ofNat 8 (2 * v.toNat + low.toNat)

/-- The byte LSR and ROR make: the bit `high` enters bit 7. -/
def shiftedRight (v : Byte) (high : Bool) : Byte := BitVec.ofNat 8 (v.toNat / 2 + 128 * high.toNat)

/-- Bit 7 of a byte. -/
def topBit (v : Byte) : Bool := decide (128 ≤ v.toNat)

/-- Bit 0 of a byte. -/
def lowBit (v : Byte) : Bool := decide (v.toNat % 2 = 1)

/-- `s` after a shift of the operand `o` with result `r` and carry out `c`: N, Z, C written, the result in A in Accumulator
mode, else written once at the effective address. -/
def shifted (o : Operand) (r : Byte) (c : Bool) (s : State) : State :=
  let t := { done o (rmwCycles o.mode) s with p := { nz r s.p with c := c } }
  match (resolve o s).1.ea with
  | none => { t with a := r }
  | some ea => wrote ea r t

/-- `s` after a branch: PC at the target when `taken`, and 2, 3 or 4 cycles; nothing else. -/
def branched (taken : Bool) (offset : Byte) (s : State) : State :=
  { done .implied (2 + branchExtra taken s.pc offset) s with
    pc := if taken then branchTarget s.pc offset else s.pc }

/-- The stack address that SP value points at. -/
def cell (sp : Byte) : Addr := BitVec.ofNat 16 (0x0100 + sp.toNat)

/-- High byte of a word. -/
def high (w : Addr) : Byte := BitVec.ofNat 8 (w.toNat / 256)

/-- Low byte of a word. -/
def low (w : Addr) : Byte := BitVec.ofNat 8 (w.toNat % 256)

/-- The word of a high and a low byte. -/
def word (h l : Byte) : Addr := BitVec.ofNat 16 (256 * h.toNat + l.toNat)

/-- `s` with one byte pushed. -/
def pushed (v : Byte) (s : State) : State := { wrote (cell s.sp) v s with sp := s.sp - 1 }

/-- `s` with one byte pulled. -/
def pulled (s : State) : State := { didRead (cell (s.sp + 1)) s with sp := s.sp + 1 }

/-- The byte the `k`-th pull from `s` reads, `k` from 1. -/
def stackByte (s : State) (k : Nat) : Byte := s.answer (k - 1) (cell (s.sp + BitVec.ofNat 8 k))

/-- Two states agree on every register, flag, the run state, the bus and memory: on all but the outputs. -/
def SameMachine (s t : State) : Prop := { s with out := t.out } = t

/-- The state an instruction executes in: PC past its `n` bytes, the trace record and the reads of those bytes recorded. -/
def fetched (n : Nat) (s : State) : State :=
  let addrs := [s.pc, s.pc + 1, s.pc + 2].take n
  { s with
    pc := s.pc + BitVec.ofNat 16 n
    bus := { s.bus with reads := s.bus.reads + addrs.length }
    out := { StepOutput.empty with
      trace := some { pc0 := s.pc, op := s.answer 0 s.pc, a := s.a, x := s.x, y := s.y, p := s.p.toByte, sp := s.sp }
      accesses := readsOf s addrs } }

/-- The three bytes the bus answers at PC, one after the other. -/
def bytesAtPc (s : State) : List Byte := [s.answer 0 s.pc, s.answer 1 (s.pc + 1), s.answer 2 (s.pc + 2)]

/-- The byte a read answered; none of a write. -/
def answered : BusAccess → Option Byte
  | .read _ v => some v
  | .write _ _ => none

end Sys2Proof.Claims

open Sys2Proof Sys2Proof.Machine Sys2Proof.Claims

/-! ## Step, decoding, reset -/

/-- R84, R12, R34, R87: while Running, a step whose bytes at PC decode to `i` is `exec i` in the state with PC past the
instruction, the trace record emitted and its bytes read. -/
def Obligations.StepRunsDecodedInstruction : Prop :=
  ∀ (s : State) (i : Instr) (rest : List Byte), s.run = .running → decode (bytesAtPc s) = .ok (i, rest) →
    i.wf = true ∧ step s = exec i (fetched (encode i).length s)

/-- R53 to R56: words written out from the spec's matrix decode to the instructions they stand for. 0xFF is ISC AbsoluteX. -/
def Obligations.SpecWordsDecodeToTheirInstruction : Prop :=
  decode [0xA9, 0xFF] = .ok (.lda (.immediate 0xFF), []) ∧
  decode [0x69, 0x05] = .ok (.adc (.immediate 0x05), []) ∧
  decode [0x4C, 0x00, 0x80] = .ok (.jmp 0x8000, []) ∧
  decode [0x6C, 0xFF, 0x30] = .ok (.jmpIndirect 0x30FF, []) ∧
  decode [0xD0, 0xFB] = .ok (.bne 0xFB, []) ∧
  decode [0x9D, 0xF0, 0x12] = .ok (.sta (.absoluteX 0x12F0), []) ∧
  decode [0xB6, 0xF0] = .ok (.ldx (.zeroPageY 0xF0), []) ∧
  decode [0x0A] = .ok (.asl .accumulator, []) ∧
  decode [0xFF, 0x00, 0x03] = .ok (.isc (.absoluteX 0x0300), []) ∧
  decode [0xFB, 0xF0, 0x02] = .ok (.isc (.absoluteY 0x02F0), []) ∧
  decode [0x2B, 0x7F] = .ok (.anc 0x2B 0x7F, []) ∧
  decode [0x9C, 0x00, 0x02] = .ok (.invalid 0x9C, [0x00, 0x02])

/-- R50 to R56: decoding the encoding of a well-formed instruction gives it back, whatever follows. -/
def Obligations.DecodeOfEncodeIsIdentity : Prop :=
  ∀ (i : Instr) (rest : List Byte), i.wf = true → decode (encode i ++ rest) = .ok (i, rest)

/-- R50, R52, R59: any opcode byte followed by any two bytes decodes to a well-formed instruction; its encoding is the
bytes it was read from, as many as its mode has, and the rest is left. -/
def Obligations.EveryBytesDecodeAndEncodeBack : Prop :=
  ∀ (op b1 b2 : Byte) (rest : List Byte), ∃ (i : Instr) (n : Nat),
    decode (op :: b1 :: b2 :: rest) = .ok (i, (op :: b1 :: b2 :: rest).drop n) ∧ i.wf = true ∧
    n = i.operand.mode.length ∧ encode i = (op :: b1 :: b2 :: rest).take n

/-- R19: every register, flag and the run state at reset, and no bus access made. -/
def Obligations.ResetStateIsAsSpecified : Prop :=
  State.reset.a = 0x00 ∧ State.reset.x = 0x00 ∧ State.reset.y = 0x00 ∧ State.reset.sp = 0xFD ∧ State.reset.pc = 0xC000 ∧
  State.reset.p.c = false ∧ State.reset.p.z = false ∧ State.reset.p.i = true ∧ State.reset.p.d = false ∧
  State.reset.p.b = false ∧ State.reset.p.u = true ∧ State.reset.p.v = false ∧ State.reset.p.n = false ∧
  State.reset.p.toByte = 0x24 ∧ State.reset.run = .running ∧ State.reset.out.accesses = []

/-- R260: the reset operation, from any state in any run state, gives every piece of CORE's state its reset value, leaves
the bus and memory untouched, makes no bus access and returns no cycle count; a step leaves neither Halted nor Faulted. That
the outputs after it are status Ok, 0 cycles, no record and no report is the model's choice (log entry 5). -/
def Obligations.ResetOperationKeepsMemoryOnly : Prop :=
  ∀ s : State,
    s.applyReset = {
      a := 0x00, x := 0x00, y := 0x00, sp := 0xFD, pc := 0xC000
      p := { c := false, z := false, i := true, d := false, b := false, u := true, v := false, n := false }
      run := .running
      bus := s.bus
      mem := s.mem
      out := { status := .ok, cycles := 0, trace := none, report := none, accesses := [] } } ∧
    s.applyReset.p.toByte = 0x24 ∧
    ∀ t, s.run ≠ .running → step s = .next t → t.run = s.run

/-- The invariant (canonical memory; stored B 0, stored U 1: R17) holds at reset. -/
def Obligations.ResetMeetsInvariant : Prop := State.reset.Inv

/-- R17: every step keeps stored B at 0 and stored U at 1, from every state that has them, and then bits 5 and 4 of the
flag byte are 1 and 0. -/
def Obligations.StepKeepsBreakClearAndUnusedSet : Prop :=
  (State.reset.p.b = false ∧ State.reset.p.u = true) ∧
  ∀ s t : State, s.p.b = false → s.p.u = true → step s = .next t →
    t.p.b = false ∧ t.p.u = true ∧ t.p.toByte.getLsbD 5 = true ∧ t.p.toByte.getLsbD 4 = false

/-- Every step keeps the whole invariant; the canonical form of memory is the model's own (log entry 2). -/
def Obligations.StepKeepsInvariant : Prop :=
  ∀ s t : State, s.Inv → step s = .next t → t.Inv

/-- R5, R241: every step of every state answers a next state; nothing faults and nothing is refused. -/
def Obligations.EveryStepAnswersNextState : Prop := ∀ s : State, ∃ t, step s = .next t

/-- R31, R40, R47: a step depends on the bus and on memory only through the bytes the bus answers. If two steps from the
same registers, flags, run state and outputs, on whatever buses and memories, are answered the same bytes in the same order,
they make the same transactions and leave the same registers, flags, run state and outputs. -/
def Obligations.StepDependsOnlyOnBytesItReads : Prop :=
  ∀ s s' t t' : State, { s' with bus := s.bus, mem := s.mem } = s → step s = .next t → step s' = .next t' →
    t.out.accesses.filterMap answered = t'.out.accesses.filterMap answered →
    { t' with bus := t.bus, mem := t.mem } = t

/-- R4, R31, D22: the bus is a parameter. A read returns what the bus answers, a write presents its byte, and each is
recorded; where RAM answers, a write is read back, where read-only memory does a write changes nothing, and a device answers the
byte given for that read, if any. Every sequence of answers is that of some bus. The form of the parameter is the model's choice
(log entry 2). -/
def Obligations.BusAnswersAsItsParameterSays : Prop :=
  (∀ (s : State) (a : Addr) (v : Byte),
    memRead a s = (s.answer 0 a, { s with
      bus := { s.bus with reads := s.bus.reads + 1 }
      out := { s.out with accesses := s.out.accesses ++ [.read a (s.answer 0 a)] } }) ∧
    memWrite a v s = { s with
      mem := (memWrite a v s).mem
      out := { s.out with accesses := s.out.accesses ++ [.write a v] } } ∧
    (∀ (c : Addr) (k : Nat), s.bus.port a = .ram c → s.mem.wf = true → (memWrite a v s).answer k a = v) ∧
    (∀ c : Addr, s.bus.port a = .rom c ∨ s.bus.port a = .device → (memWrite a v s).mem = s.mem) ∧
    (∀ (k : Nat) (b : Byte), s.bus.port a = .device → s.bus.answers.lookup (s.bus.reads + k) = some b →
      s.answer k a = b)) ∧
  (∀ (s : State) (bytes : List Byte) (k : Nat) (a : Addr) (h : k < bytes.length),
    (s.hostBus (Bus.scripted bytes)).answer k a = bytes[k]) ∧
  (∀ (s : State) (k : Nat) (a : Addr), s.bus.regions = [] → s.answer k a = s.mem.read a)

/-- R4, R31: no step changes the bus it is given: its map and its devices' answers stay, and it has answered as many more
reads as the step made (log entry 2). -/
def Obligations.StepKeepsTheBusParameter : Prop :=
  ∀ s t : State, step s = .next t →
    t.bus = { s.bus with reads := s.bus.reads + (t.out.accesses.filterMap answered).length }

/-- R86: a step while Halted or Faulted makes no bus access, emits no record and changes nothing; it returns that status
with 0 cycles. -/
def Obligations.NonRunningStepChangesNothing : Prop :=
  ∀ s : State,
    (s.run = .halted → step s = .next
      { s with out := { status := .halted, cycles := 0, trace := none, report := none, accesses := [] } }) ∧
    (s.run = .faulted → step s = .next
      { s with out := { status := .faulted, cycles := 0, trace := none, report := none, accesses := [] } })

/-- R18, R243: however many steps are issued, a CORE that is not Running stays as it is; only reset makes it run again. -/
def Obligations.OnlyResetLeavesHaltedOrFaulted : Prop :=
  ∀ (k : Nat) (s : State), s.run ≠ .running →
    (∃ t, Host.Core.run core k s = .next t ∧ SameMachine s t) ∧ s.applyReset.run = .running

/-- R60, R220, R221, R240, R245: a step while Running ends Halted exactly on the twelve KIL bytes, Faulted exactly on the
five invalid bytes, and Running on all others; the status returned says which. -/
def Obligations.RunStateChangesOnlyByKilAndInvalid : Prop :=
  ∀ s t : State, s.run = .running → step s = .next t →
    (t.run = .halted ↔ s.answer 0 s.pc ∈
      ([0x02, 0x12, 0x22, 0x32, 0x42, 0x52, 0x62, 0x72, 0x92, 0xB2, 0xD2, 0xF2] : List Byte)) ∧
    (t.run = .faulted ↔ s.answer 0 s.pc ∈ ([0x93, 0x9B, 0x9C, 0x9E, 0x9F] : List Byte)) ∧
    (t.run = .running ↔ t.out.status = .ok) ∧ (t.run = .halted ↔ t.out.status = .halted) ∧
    (t.Safe ↔ t.out.status ≠ .faulted)

/-- R87: the trace record of a step while Running holds the opcode's address, the opcode, and the registers and flag byte
before the instruction executed. -/
def Obligations.TraceRecordHoldsStateBeforeInstruction : Prop :=
  ∀ s t : State, s.run = .running → step s = .next t →
    t.out.trace = some
      { pc0 := s.pc, op := s.answer 0 s.pc, a := s.a, x := s.x, y := s.y, p := s.p.toByte, sp := s.sp }

/-- R85 with the columns of the opcode table (R57): the cost of a well-formed instruction is its base count, its crossing
extra when its operand crossed a page, and a branch's own 0, 1 or 2. A halting or faulting instruction costs 0. -/
def Obligations.CycleCostIsTableSum : Prop :=
  ∀ (i : Instr) (s t : State) (op : Byte), i.wf = true → (encode i).head? = some op → exec i s = .next t →
    t.out.cycles = tableBaseCycles.getD op.toNat 0 +
      (if pageCrossed i.operand s then tableCrossExtra.getD op.toNat 0 else 0) +
      (match i.operand with
        | .relative offset => branchExtra (branchTaken i s.p) s.pc offset
        | _ => 0)

/-- R40, R83, R88: the transactions of one step while Running, in order: the instruction's bytes, the operand's pointer and
operand reads, then the routine's; a trap's writes come before its vector reads, and a KIL or invalid byte makes the opcode
fetch only. -/
def Obligations.StepAccessesFollowModeAndRoutine : Prop :=
  ∀ (s t : State) (i : Instr) (rest : List Byte), s.run = .running → decode (bytesAtPc s) = .ok (i, rest) →
    step s = .next t →
    let u := fetched i.operand.mode.length s
    t.out.accesses.map BusAccess.kind =
      ([s.pc, s.pc + 1, s.pc + 2].take i.operand.mode.length).map AccessKind.readAt ++
      (operandReadAddrs i.operand u).map AccessKind.readAt ++
      (storedAddrs i u).map AccessKind.writeAt ++ (routineReadAddrs i u).map AccessKind.readAt

/-! ## Frames -/

/-- R21, columns A, X, Y, SP, and R12: a well-formed instruction leaves each register it does not write as it was; PC is
written by the control-flow instructions only, and the run state by KIL and the invalid bytes only. -/
def Obligations.RegistersNotInWriteTableAreUnchanged : Prop :=
  ∀ (i : Instr) (s t : State), i.wf = true → exec i s = .next t →
    (i.writesA = false → t.a = s.a) ∧ (i.writesX = false → t.x = s.x) ∧ (i.writesY = false → t.y = s.y) ∧
    (i.writesSP = false → t.sp = s.sp) ∧ (i.writesPC = false → t.pc = s.pc) ∧
    ((∀ op, i ≠ .kil op ∧ i ≠ .invalid op) → t.run = s.run)

/-- R21, flag columns, and R16: a well-formed instruction leaves each flag it does not write as it was; B and U are written
by the two instructions that pull the flags only. -/
def Obligations.FlagsNotInWriteTableAreUnchanged : Prop :=
  ∀ (i : Instr) (s t : State), i.wf = true → exec i s = .next t →
    (i.writesNZ = false → t.p.n = s.p.n ∧ t.p.z = s.p.z) ∧ (i.writesV = false → t.p.v = s.p.v) ∧
    (i.writesC = false → t.p.c = s.p.c) ∧ (i.writesI = false → t.p.i = s.p.i) ∧ (i.writesD = false → t.p.d = s.p.d) ∧
    (i.pullsFlags = false → t.p.b = s.p.b ∧ t.p.u = s.p.u)

/-- R21, column memory: every byte of memory reads as before but those behind the addresses an instruction stores to; an
instruction that stores nothing leaves memory as it was. The addresses are those of the meaning: the resolved effective address,
or the stack addresses of the pushes. The bus says which byte is behind an address: on the flat RAM, the one of that address
(log entry 2). -/
def Obligations.BytesNotStoredToAreUnchanged : Prop :=
  ∀ (i : Instr) (s t : State), exec i s = .next t →
    (∀ c : Addr, c ∉ (storedAddrs i s).filterMap s.bus.storeCell → t.mem.read c = s.mem.read c) ∧
    (s.bus.regions = [] → ∀ a : Addr, a ∉ storedAddrs i s → t.mem.read a = s.mem.read a) ∧
    (storedAddrs i s = [] → t.mem = s.mem)

/-- R22, R23: no instruction but those that push or write the flag itself depends on D, or on I: changing the flag before
changes nothing but the flag after. -/
def Obligations.DecimalAndInterruptFlagsAreInert : Prop :=
  ∀ (i : Instr) (s t : State) (f : Bool), i.pushesFlags = false → exec i s = .next t →
    (i.writesD = false →
      exec i { s with p := { s.p with d := f } } = .next { t with p := { t.p with d := f } }) ∧
    (i.writesI = false →
      exec i { s with p := { s.p with i := f } } = .next { t with p := { t.p with i := f } })

/-! ## Operands, stack, flag byte, memory -/

/-- R70 to R82: value, effective address, page-crossed flag and reads of each of the thirteen modes, and nothing else
changed. -/
def Obligations.ResolverFollowsEachMode : Prop :=
  ∀ (s : State) (v : Byte) (w : Addr),
    let at_ (ea : Addr) (crossed : Bool) (reads : List Addr) : Resolved × State :=
      ({ value := s.answer reads.length ea, ea := some ea, crossed := crossed }, s.afterReads (reads ++ [ea]))
    let zp (n : Nat) : Addr := BitVec.ofNat 16 (n % 256)
    let pointer (n : Nat) : Addr := word (s.answer 1 (zp (n + 1))) (s.answer 0 (zp n))
    let sum (index : Byte) : Addr := BitVec.ofNat 16 (w.toNat + index.toNat)
    let crosses (index : Byte) : Bool := decide ((sum index).toNat / 256 ≠ w.toNat / 256)
    let next : Addr := BitVec.ofNat 16 (256 * (w.toNat / 256) + (w.toNat + 1) % 256)
    resolve .implied s = ({ value := s.a, ea := none, crossed := false }, s) ∧
    resolve .accumulator s = ({ value := s.a, ea := none, crossed := false }, s) ∧
    resolve (.immediate v) s = ({ value := v, ea := none, crossed := false }, s) ∧
    resolve (.relative v) s = ({ value := v, ea := none, crossed := false }, s) ∧
    resolve (.zeroPage v) s = at_ (zp v.toNat) false [] ∧
    resolve (.zeroPageX v) s = at_ (zp (v.toNat + s.x.toNat)) false [] ∧
    resolve (.zeroPageY v) s = at_ (zp (v.toNat + s.y.toNat)) false [] ∧
    resolve (.absolute w) s = at_ w false [] ∧
    resolve (.absoluteX w) s = at_ (sum s.x) (crosses s.x) [] ∧
    resolve (.absoluteY w) s = at_ (sum s.y) (crosses s.y) [] ∧
    resolve (.indirectX v) s = at_ (pointer (v.toNat + s.x.toNat)) false
      [zp (v.toNat + s.x.toNat), zp (v.toNat + s.x.toNat + 1)] ∧
    resolve (.indirectY v) s = at_ (pointer v.toNat + BitVec.ofNat 16 s.y.toNat) false [zp v.toNat, zp (v.toNat + 1)] ∧
    resolve (.indirect w) s =
      ({ value := 0, ea := some (word (s.answer 1 next) (s.answer 0 w)), crossed := false },
       s.afterReads [w, next])

/-- R265: zero-page addresses and both bytes of every zero-page pointer stay below 0x0100. -/
def Obligations.ZeroPageAddressesStayInPageZero : Prop :=
  ∀ (s : State) (v : Byte),
    (∀ o ∈ [Operand.zeroPage v, .zeroPageX v, .zeroPageY v], ∃ ea, (resolve o s).1.ea = some ea ∧ ea.toNat < 0x0100) ∧
    ∀ o ∈ [Operand.indirectX v, .indirectY v], ∃ l h ea : Addr,
      (resolve o s).2.out.accesses.map BusAccess.kind =
        s.out.accesses.map BusAccess.kind ++ [.readAt l, .readAt h, .readAt ea] ∧
      l.toNat < 0x0100 ∧ h.toNat < 0x0100

/-- R35, R266: a push writes at 0x0100 + SP and then decrements SP, a pull increments SP and then reads at 0x0100 + SP, both
modulo 256 and inside page one. On the flat RAM, the model's choice for reset (log entry 2), a push and then a pull give the
byte back with SP unchanged. -/
def Obligations.PushAndPullWrapInPageOne : Prop :=
  ∀ (s : State) (v : Byte),
    push8 v s = { wrote (BitVec.ofNat 16 (0x0100 + s.sp.toNat)) v s with sp := BitVec.ofNat 8 (s.sp.toNat + 255) } ∧
    (let sp' := BitVec.ofNat 8 ((s.sp.toNat + 1) % 256)
     let a := BitVec.ofNat 16 (0x0100 + (s.sp.toNat + 1) % 256)
     pull8 s = (s.answer 0 a, { didRead a s with sp := sp' })) ∧
    (0x0100 ≤ (stackAddr s.sp).toNat ∧ (stackAddr s.sp).toNat ≤ 0x01FF) ∧
    (s.mem.wf = true → s.bus.regions = [] → (pull8 (push8 v s)).1 = v ∧ (pull8 (push8 v s)).2.sp = s.sp)

/-- R14, R15, R16: the bits of the flag byte; a push forces bit 4 (PHP) or bits 4 and 5 (BRK), and the two agree when
stored U is 1; a pull takes C, Z, I, D, V, N from their bits, clears B and sets U. -/
def Obligations.FlagByteLayoutPushAndPull : Prop :=
  (∀ p : Flags, ∀ k : Nat, k < 8 → p.toByte.getLsbD k = [p.c, p.z, p.i, p.d, p.b, p.u, p.v, p.n].getD k false) ∧
  (∀ p : Flags, p.packPhp = p.toByte ||| 0x10 ∧ p.packBrk = p.toByte ||| 0x30 ∧
    (p.u = true → p.packPhp = p.packBrk)) ∧
  (∀ v : Byte, Flags.unpack v =
    { c := v.getLsbD 0, z := v.getLsbD 1, i := v.getLsbD 2, d := v.getLsbD 3, b := false, u := true,
      v := v.getLsbD 6, n := v.getLsbD 7 }) ∧
  (∀ p : Flags, Flags.unpack p.packPhp = { p with b := false, u := true } ∧
    Flags.unpack p.packBrk = { p with b := false, u := true })

/-- R100: the whole of AddCore: sum modulo 256, V by the sign rule and by its equivalent forms, N, Z, C. -/
def Obligations.AddCoreComputesSumAndFlags : Prop :=
  ∀ (a m : Byte) (c : Bool) (p : Flags),
    let sum := a.toNat + m.toNat + c.toNat
    let r := addResult a m c
    r.toNat = sum % 256 ∧
    p.addCore a m c = { p with
      v := (topBit a == topBit m) && (topBit r != topBit a), n := topBit r, z := decide (r.toNat = 0)
      c := decide (sum > 255) } ∧
    (p.addCore a m c).v = overflows (a.toInt + m.toInt + (c.toNat : Int)) ∧
    ((p.addCore a m c).v = true ↔ ((a ^^^ r) &&& (m ^^^ r) &&& 0x80) ≠ 0)

/-- R111, R115: Compare sets C by the unsigned comparison, Z by equality, N from the difference modulo 256 and not from the
register, and writes nothing else; SetNZ writes N and Z only. -/
def Obligations.CompareAndSetNZWriteTheirFlags : Prop :=
  (∀ (r m : Byte) (p : Flags), p.compare r m = { p with
      c := decide (m.toNat ≤ r.toNat), z := decide (r = m), n := topBit (BitVec.ofNat 8 (r.toNat + 256 - m.toNat)) }) ∧
  (∀ (v : Byte) (p : Flags), p.setNZ v = { p with n := topBit v, z := decide (v.toNat = 0) })

/-- The model's memory has one form per content (log entry 2): canonical memories that read alike at every address are
equal. -/
def Obligations.CanonicalMemoriesThatReadAlikeAreEqual : Prop :=
  ∀ m m' : Memory, m.wf = true → m'.wf = true → (∀ a : Addr, m.read a = m'.read a) → m = m'

/-- The interface of the model (log entry 8): the instruction read from a table word is the one that the next step runs from
the state with that word placed, in the run state Running. -/
def Obligations.PlacedTableWordIsRunNext : Prop :=
  ∀ (s : State) (nbits w : Nat) (i : Instr), s.mem.wf = true → decodeTableWord nbits w = some i →
    step (s.withFetchWord nbits w) = exec i (fetched (encode i).length (s.withFetchWord nbits w))

/-- R47: a byte stored where the next instruction is fetched is the opcode of that instruction, on the flat RAM of log
entry 2. -/
def Obligations.StoreIsSeenByNextFetch : Prop :=
  ∀ s : State, s.mem.wf = true → s.bus.regions = [] → ∃ t, exec (.sta (.absolute s.pc)) s = .next t ∧
    ∀ u, t.run = .running → step t = .next u → ∃ r, u.out.trace = some r ∧ r.op = s.a ∧ r.pc0 = s.pc

/-! ## Arithmetic and logic -/

/-- R101, R102, R215: ADC adds the operand and C to A; SBC, and the undocumented 0xEB, subtract the operand and the borrow. -/
def Obligations.AdcAndSbcComputeInBinary : Prop :=
  HasEncodings .adc [(.immediate, 0x69), (.zeroPage, 0x65), (.zeroPageX, 0x75), (.absolute, 0x6D), (.absoluteX, 0x7D),
    (.absoluteY, 0x79), (.indirectX, 0x61), (.indirectY, 0x71)] ∧
  HasEncodings .sbc [(.immediate, 0xE9), (.zeroPage, 0xE5), (.zeroPageX, 0xF5), (.absolute, 0xED), (.absoluteX, 0xFD),
    (.absoluteY, 0xF9), (.indirectX, 0xE1), (.indirectY, 0xF1)] ∧
  (∀ v, encode (.sbcEB v) = [0xEB, v]) ∧
  ∀ (o : Operand) (s : State) (v : Byte),
    exec (.adc o) s = .next (added (operandValue o s) s.p.c (done o (readCost o s) s)) ∧
    exec (.sbc o) s = .next (subtracted (operandValue o s) (done o (readCost o s) s)) ∧
    exec (.sbcEB v) s = .next (subtracted v (done (.immediate v) 2 s))

/-- R103, R104, R105: AND, EOR and ORA combine A with the operand bit by bit; N and Z. -/
def Obligations.LogicCombinesIntoA : Prop :=
  HasEncodings .and [(.immediate, 0x29), (.zeroPage, 0x25), (.zeroPageX, 0x35), (.absolute, 0x2D), (.absoluteX, 0x3D),
    (.absoluteY, 0x39), (.indirectX, 0x21), (.indirectY, 0x31)] ∧
  HasEncodings .eor [(.immediate, 0x49), (.zeroPage, 0x45), (.zeroPageX, 0x55), (.absolute, 0x4D), (.absoluteX, 0x5D),
    (.absoluteY, 0x59), (.indirectX, 0x41), (.indirectY, 0x51)] ∧
  HasEncodings .ora [(.immediate, 0x09), (.zeroPage, 0x05), (.zeroPageX, 0x15), (.absolute, 0x0D), (.absoluteX, 0x1D),
    (.absoluteY, 0x19), (.indirectX, 0x01), (.indirectY, 0x11)] ∧
  ∀ (o : Operand) (s : State),
    let v := operandValue o s
    let t := done o (readCost o s) s
    exec (.and o) s = .next { t with a := s.a &&& v, p := nz (s.a &&& v) s.p } ∧
    exec (.eor o) s = .next { t with a := s.a ^^^ v, p := nz (s.a ^^^ v) s.p } ∧
    exec (.ora o) s = .next { t with a := s.a ||| v, p := nz (s.a ||| v) s.p }

/-- R106 to R109, R116: each shift moves the operand one place, C takes the bit shifted out, the rotates take the old C in;
the result goes to A in Accumulator mode and else to memory, address 0x0000 included. -/
def Obligations.ShiftsMoveOneBitThroughCarry : Prop :=
  HasEncodings .asl [(.accumulator, 0x0A), (.zeroPage, 0x06), (.zeroPageX, 0x16), (.absolute, 0x0E), (.absoluteX, 0x1E)] ∧
  HasEncodings .lsr [(.accumulator, 0x4A), (.zeroPage, 0x46), (.zeroPageX, 0x56), (.absolute, 0x4E), (.absoluteX, 0x5E)] ∧
  HasEncodings .rol [(.accumulator, 0x2A), (.zeroPage, 0x26), (.zeroPageX, 0x36), (.absolute, 0x2E), (.absoluteX, 0x3E)] ∧
  HasEncodings .ror [(.accumulator, 0x6A), (.zeroPage, 0x66), (.zeroPageX, 0x76), (.absolute, 0x6E), (.absoluteX, 0x7E)] ∧
  (∀ s : State, (resolve .accumulator s).1.ea = none) ∧
  ∀ (o : Operand) (s : State),
    let v := operandValue o s
    exec (.asl o) s = .next (shifted o (shiftedLeft v false) (topBit v) s) ∧
    exec (.lsr o) s = .next (shifted o (shiftedRight v false) (lowBit v) s) ∧
    exec (.rol o) s = .next (shifted o (shiftedLeft v s.p.c) (topBit v) s) ∧
    exec (.ror o) s = .next (shifted o (shiftedRight v s.p.c) (lowBit v) s)

/-- R110, R112, R113, R114: BIT and the compares write flags only. -/
def Obligations.BitAndComparesWriteFlagsOnly : Prop :=
  HasEncodings .bit [(.zeroPage, 0x24), (.absolute, 0x2C)] ∧
  HasEncodings .cmp [(.immediate, 0xC9), (.zeroPage, 0xC5), (.zeroPageX, 0xD5), (.absolute, 0xCD), (.absoluteX, 0xDD),
    (.absoluteY, 0xD9), (.indirectX, 0xC1), (.indirectY, 0xD1)] ∧
  HasEncodings .cpx [(.immediate, 0xE0), (.zeroPage, 0xE4), (.absolute, 0xEC)] ∧
  HasEncodings .cpy [(.immediate, 0xC0), (.zeroPage, 0xC4), (.absolute, 0xCC)] ∧
  ∀ (o : Operand) (s : State),
    let v := operandValue o s
    let t := done o (readCost o s) s
    exec (.bit o) s = .next { t with p := { s.p with
      z := decide ((s.a &&& v).toNat = 0), n := topBit v, v := decide (64 ≤ v.toNat % 128) } } ∧
    exec (.cmp o) s = .next { t with p := compared s.a v s.p } ∧
    exec (.cpx o) s = .next { t with p := compared s.x v s.p } ∧
    exec (.cpy o) s = .next { t with p := compared s.y v s.p }

/-! ## Control flow -/

/-- R120 to R128: a branch whose condition holds adds its signed offset to PC modulo 65536, and costs 3 cycles, or 4 when the
page changes; one whose condition fails costs 2 and changes nothing. -/
def Obligations.BranchesMovePcOnTheirFlag : Prop :=
  (∀ b, encode (.bcc b) = [0x90, b] ∧ encode (.bcs b) = [0xB0, b] ∧ encode (.beq b) = [0xF0, b] ∧
    encode (.bne b) = [0xD0, b] ∧ encode (.bmi b) = [0x30, b] ∧ encode (.bpl b) = [0x10, b] ∧
    encode (.bvc b) = [0x50, b] ∧ encode (.bvs b) = [0x70, b]) ∧
  ∀ (b : Byte) (s : State),
    exec (.bcc b) s = .next (branched (s.p.c == false) b s) ∧ exec (.bcs b) s = .next (branched (s.p.c == true) b s) ∧
    exec (.beq b) s = .next (branched (s.p.z == true) b s) ∧ exec (.bne b) s = .next (branched (s.p.z == false) b s) ∧
    exec (.bmi b) s = .next (branched (s.p.n == true) b s) ∧ exec (.bpl b) s = .next (branched (s.p.n == false) b s) ∧
    exec (.bvc b) s = .next (branched (s.p.v == false) b s) ∧ exec (.bvs b) s = .next (branched (s.p.v == true) b s)

/-- R129, R130, R264: JMP loads PC with its target, after the read of the byte there; JMP indirect takes the low byte at its
pointer and the high byte at the next address inside the pointer's page. -/
def Obligations.JumpsLoadPc : Prop :=
  (∀ w, encode (.jmp w) = [0x4C, low w, high w] ∧ encode (.jmpIndirect w) = [0x6C, low w, high w]) ∧
  ∀ (w : Addr) (s : State),
    let next : Addr := BitVec.ofNat 16 (256 * (w.toNat / 256) + (w.toNat + 1) % 256)
    exec (.jmp w) s = .next { didRead w (done .implied 3 s) with pc := w } ∧
    exec (.jmpIndirect w) s = .next
      { didRead next (didRead w (done .implied 5 s)) with pc := word (s.answer 1 next) (s.answer 0 w) }

/-- R131, R132: JSR pushes the address of its own last byte, high byte first, and jumps; RTS pulls a word, low byte first,
and goes on one past it. -/
def Obligations.JsrPushesAndRtsPullsReturnAddress : Prop :=
  (∀ w, encode (.jsr w) = [0x20, low w, high w]) ∧ encode .rts = [0x60] ∧
  ∀ (w : Addr) (s : State),
    exec (.jsr w) s = .next
      { pushed (low (s.pc - 1)) (pushed (high (s.pc - 1)) (didRead w (done .implied 6 s))) with pc := w } ∧
    exec .rts s = .next
      { pulled (pulled (done .implied 6 s)) with pc := word (stackByte s 2) (stackByte s 1) + 1 }

/-- R133: BRK pushes PC high, PC low and the flag byte with B and U set, and takes PC from the vector; no flag
changes. PC is the address after the opcode, since BRK is one byte. -/
def Obligations.BrkPushesAndVectors : Prop :=
  encode .brk = [0x00] ∧
  ∀ s : State,
    let t := pushed (s.p.toByte ||| 0x30) (pushed (low s.pc) (pushed (high s.pc) (done .implied 7 s)))
    exec .brk s = .next
      { didRead 0xFFFF (didRead 0xFFFE t) with pc := word (t.answer 1 0xFFFF) (t.answer 0 0xFFFE) }

/-- R134: RTI pulls the flags, bit 4 ignored and B cleared, bit 5 ignored and U set, and then PC, low byte first, with
nothing added. -/
def Obligations.RtiPullsFlagsAndPc : Prop :=
  encode .rti = [0x40] ∧
  ∀ s : State, exec .rti s = .next
    { pulled (pulled (pulled (done .implied 6 s))) with
      p := { c := (stackByte s 1).getLsbD 0, z := (stackByte s 1).getLsbD 1, i := (stackByte s 1).getLsbD 2,
             d := (stackByte s 1).getLsbD 3, b := false, u := true, v := (stackByte s 1).getLsbD 6,
             n := (stackByte s 1).getLsbD 7 }
      pc := word (stackByte s 3) (stackByte s 2) }

/-- R131, R132: RTS right after JSR returns to the instruction after the JSR with SP as it was, for every SP. The bus is the
flat RAM of log entry 2, which reads back what was written. -/
def Obligations.RtsUndoesJsr : Prop :=
  ∀ (w : Addr) (s : State), s.mem.wf = true → s.bus.regions = [] → ∃ t u, exec (.jsr w) s = .next t ∧ exec .rts t = .next u ∧
    t.pc = w ∧ u.pc = s.pc ∧ u.sp = s.sp ∧ u.a = s.a ∧ u.x = s.x ∧ u.y = s.y ∧ u.p = s.p

/-- R246, R247, R267, R268: RTI right after BRK resumes at the byte after the BRK opcode with the flags as they were, B
cleared and U set, and SP as it was. The bus is the flat RAM of log entry 2, which reads back what was written. -/
def Obligations.RtiUndoesBrk : Prop :=
  ∀ s : State, s.mem.wf = true → s.bus.regions = [] → ∃ t u, exec .brk s = .next t ∧ exec .rti t = .next u ∧
    t.p = s.p ∧ t.sp = s.sp - 3 ∧ u.pc = s.pc ∧ u.sp = s.sp ∧ u.p = { s.p with b := false, u := true } ∧
    u.a = s.a ∧ u.x = s.x ∧ u.y = s.y ∧ u.mem = t.mem

/-! ## Stack, transfers, loads, stores, increments, flags, NOP -/

/-- R140 to R143: PHA and PHP push A and the flag byte with B set; PLA pulls into A with N and Z; PLP pulls the flags. -/
def Obligations.StackInstructionsPushAndPull : Prop :=
  encode .pha = [0x48] ∧ encode .pla = [0x68] ∧ encode .php = [0x08] ∧ encode .plp = [0x28] ∧
  ∀ s : State,
    exec .pha s = .next (pushed s.a (done .implied 3 s)) ∧
    exec .php s = .next (pushed (s.p.toByte ||| 0x10) (done .implied 3 s)) ∧
    exec .pla s = .next { pulled (done .implied 4 s) with a := stackByte s 1, p := nz (stackByte s 1) s.p } ∧
    exec .plp s = .next { pulled (done .implied 4 s) with
      p := { c := (stackByte s 1).getLsbD 0, z := (stackByte s 1).getLsbD 1, i := (stackByte s 1).getLsbD 2,
             d := (stackByte s 1).getLsbD 3, b := false, u := true, v := (stackByte s 1).getLsbD 6,
             n := (stackByte s 1).getLsbD 7 } }

/-- R35, R15, R16: for every SP, PLA after PHA restores A and SP; PLP after PHP restores SP and all flags, B forced to 0 and
U to 1. The bus is the flat RAM of log entry 2, which reads back what was written. -/
def Obligations.PullsUndoPushes : Prop :=
  ∀ s : State, s.mem.wf = true → s.bus.regions = [] →
    (∃ t u, exec .pha s = .next t ∧ (∀ a : Byte, exec .pla { t with a := a } = .next u) ∧ u.a = s.a ∧ u.sp = s.sp ∧
      u.p = nz s.a s.p) ∧
    (∃ t u, exec .php s = .next t ∧ (∀ p : Flags, exec .plp { t with p := p } = .next u) ∧ u.sp = s.sp ∧
      u.p = { s.p with b := false, u := true })

/-- R144 to R149: the six transfers copy one register to another; all but TXS set N and Z. -/
def Obligations.TransfersCopyRegisters : Prop :=
  encode .tax = [0xAA] ∧ encode .tay = [0xA8] ∧ encode .tsx = [0xBA] ∧ encode .txa = [0x8A] ∧ encode .tya = [0x98] ∧
  encode .txs = [0x9A] ∧
  ∀ s : State,
    let t := done .implied 2 s
    exec .tax s = .next { t with x := s.a, p := nz s.a s.p } ∧ exec .tay s = .next { t with y := s.a, p := nz s.a s.p } ∧
    exec .tsx s = .next { t with x := s.sp, p := nz s.sp s.p } ∧ exec .txa s = .next { t with a := s.x, p := nz s.x s.p } ∧
    exec .tya s = .next { t with a := s.y, p := nz s.y s.p } ∧ exec .txs s = .next { t with sp := s.x }

/-- R150, R151, R152, R206: a load puts its operand into its register (LAX into A and X) and sets N and Z. -/
def Obligations.LoadsPutOperandInRegister : Prop :=
  HasEncodings .lda [(.immediate, 0xA9), (.zeroPage, 0xA5), (.zeroPageX, 0xB5), (.absolute, 0xAD), (.absoluteX, 0xBD),
    (.absoluteY, 0xB9), (.indirectX, 0xA1), (.indirectY, 0xB1)] ∧
  HasEncodings .ldx [(.immediate, 0xA2), (.zeroPage, 0xA6), (.zeroPageY, 0xB6), (.absolute, 0xAE), (.absoluteY, 0xBE)] ∧
  HasEncodings .ldy [(.immediate, 0xA0), (.zeroPage, 0xA4), (.zeroPageX, 0xB4), (.absolute, 0xAC), (.absoluteX, 0xBC)] ∧
  HasEncodings .lax [(.zeroPage, 0xA7), (.zeroPageY, 0xB7), (.absolute, 0xAF), (.absoluteY, 0xBF), (.indirectX, 0xA3),
    (.indirectY, 0xB3)] ∧
  ∀ (o : Operand) (s : State),
    let v := operandValue o s
    let t := done o (readCost o s) s
    exec (.lda o) s = .next { t with a := v, p := nz v s.p } ∧ exec (.ldx o) s = .next { t with x := v, p := nz v s.p } ∧
    exec (.ldy o) s = .next { t with y := v, p := nz v s.p } ∧
    exec (.lax o) s = .next { t with a := v, x := v, p := nz v s.p }

/-- R153, R154, R155, R205: a store writes its register (SAX: A AND X) once at the resolved address, which every form of it
has, after the operand read there; no flag and no register changes. -/
def Obligations.StoresWriteAtEffectiveAddress : Prop :=
  HasEncodings .sta [(.zeroPage, 0x85), (.zeroPageX, 0x95), (.absolute, 0x8D), (.absoluteX, 0x9D), (.absoluteY, 0x99),
    (.indirectX, 0x81), (.indirectY, 0x91)] ∧
  HasEncodings .stx [(.zeroPage, 0x86), (.zeroPageY, 0x96), (.absolute, 0x8E)] ∧
  HasEncodings .sty [(.zeroPage, 0x84), (.zeroPageX, 0x94), (.absolute, 0x8C)] ∧
  HasEncodings .sax [(.zeroPage, 0x87), (.zeroPageY, 0x97), (.absolute, 0x8F), (.indirectX, 0x83)] ∧
  ∀ (o : Operand) (s : State),
    ((Instr.sta o).wf = true ∨ (Instr.stx o).wf = true ∨ (Instr.sty o).wf = true ∨ (Instr.sax o).wf = true →
      ∃ ea, (resolve o s).1.ea = some ea) ∧
    ∀ ea, (resolve o s).1.ea = some ea →
      let t := done o (storeCycles o.mode) s
      exec (.sta o) s = .next (wrote ea s.a t) ∧ exec (.stx o) s = .next (wrote ea s.x t) ∧
      exec (.sty o) s = .next (wrote ea s.y t) ∧ exec (.sax o) s = .next (wrote ea (s.a &&& s.x) t)

/-- R156, R157: INC and DEC write the operand plus or minus one, modulo 256, once at the resolved address, which every form
of them has; N and Z. -/
def Obligations.IncAndDecRewriteMemory : Prop :=
  HasEncodings .inc [(.zeroPage, 0xE6), (.zeroPageX, 0xF6), (.absolute, 0xEE), (.absoluteX, 0xFE)] ∧
  HasEncodings .dec [(.zeroPage, 0xC6), (.zeroPageX, 0xD6), (.absolute, 0xCE), (.absoluteX, 0xDE)] ∧
  ∀ (o : Operand) (s : State),
    ((Instr.inc o).wf = true ∨ (Instr.dec o).wf = true → ∃ ea, (resolve o s).1.ea = some ea) ∧
    ∀ ea, (resolve o s).1.ea = some ea →
      let up := BitVec.ofNat 8 (((operandValue o s).toNat + 1) % 256)
      let down := BitVec.ofNat 8 (((operandValue o s).toNat + 255) % 256)
      let t := done o (rmwCycles o.mode) s
      exec (.inc o) s = .next (wrote ea up { t with p := nz up s.p }) ∧
      exec (.dec o) s = .next (wrote ea down { t with p := nz down s.p })

/-- R158 to R161: INX, INY, DEX and DEY step their register modulo 256; N and Z. -/
def Obligations.RegisterIncrementsWrap : Prop :=
  encode .inx = [0xE8] ∧ encode .iny = [0xC8] ∧ encode .dex = [0xCA] ∧ encode .dey = [0x88] ∧
  ∀ s : State,
    let up (v : Byte) : Byte := BitVec.ofNat 8 ((v.toNat + 1) % 256)
    let down (v : Byte) : Byte := BitVec.ofNat 8 ((v.toNat + 255) % 256)
    let t := done .implied 2 s
    exec .inx s = .next { t with x := up s.x, p := nz (up s.x) s.p } ∧
    exec .iny s = .next { t with y := up s.y, p := nz (up s.y) s.p } ∧
    exec .dex s = .next { t with x := down s.x, p := nz (down s.x) s.p } ∧
    exec .dey s = .next { t with y := down s.y, p := nz (down s.y) s.p }

/-- R162 to R168: each flag instruction sets or clears its one flag and does nothing else. -/
def Obligations.FlagInstructionsWriteOneFlag : Prop :=
  encode .clc = [0x18] ∧ encode .cld = [0xD8] ∧ encode .cli = [0x58] ∧ encode .clv = [0xB8] ∧ encode .sec = [0x38] ∧
  encode .sed = [0xF8] ∧ encode .sei = [0x78] ∧
  ∀ s : State,
    let t := done .implied 2 s
    exec .clc s = .next { t with p := { s.p with c := false } } ∧ exec .cld s = .next { t with p := { s.p with d := false } } ∧
    exec .cli s = .next { t with p := { s.p with i := false } } ∧ exec .clv s = .next { t with p := { s.p with v := false } } ∧
    exec .sec s = .next { t with p := { s.p with c := true } } ∧ exec .sed s = .next { t with p := { s.p with d := true } } ∧
    exec .sei s = .next { t with p := { s.p with i := true } }

/-- R169, R217, R218, R219: the documented NOP and the 27 undocumented ones change no register, flag or byte of memory; those
with a memory operand make its read. -/
def Obligations.NopsChangeNothing : Prop :=
  encode .nop = [0xEA] ∧
  (∀ op, ((Instr.nopOneByte op).wf = true ↔ op ∈ ([0x1A, 0x3A, 0x5A, 0x7A, 0xDA, 0xFA] : List Byte)) ∧
    encode (.nopOneByte op) = [op]) ∧
  (∀ op o, ((Instr.nopTwoByte op o).wf = true ↔ (o.mode, op) ∈ ([(.immediate, 0x80), (.immediate, 0x82), (.immediate, 0x89),
      (.immediate, 0xC2), (.immediate, 0xE2), (.zeroPage, 0x04), (.zeroPage, 0x44), (.zeroPage, 0x64), (.zeroPageX, 0x14),
      (.zeroPageX, 0x34), (.zeroPageX, 0x54), (.zeroPageX, 0x74), (.zeroPageX, 0xD4), (.zeroPageX, 0xF4)] :
      List (Mode × Byte))) ∧ encode (.nopTwoByte op o) = op :: o.bytes) ∧
  (∀ op o, ((Instr.nopThreeByte op o).wf = true ↔ (o.mode, op) ∈ ([(.absolute, 0x0C), (.absoluteX, 0x1C),
      (.absoluteX, 0x3C), (.absoluteX, 0x5C), (.absoluteX, 0x7C), (.absoluteX, 0xDC), (.absoluteX, 0xFC)] :
      List (Mode × Byte))) ∧ encode (.nopThreeByte op o) = op :: o.bytes) ∧
  ∀ (op : Byte) (o : Operand) (s : State),
    exec .nop s = .next (done .implied 2 s) ∧ exec (.nopOneByte op) s = .next (done .implied 2 s) ∧
    exec (.nopTwoByte op o) s = .next (done o (readCost o s) s) ∧
    exec (.nopThreeByte op o) s = .next (done o (readCost o s) s)

/-! ## Undocumented instructions, halt, invalid opcode -/

/-- R201 to R204, R208, R209: each read-modify-write combination rewrites the byte at its resolved address, which every form
of it has, once, and then works on A with the new byte. -/
def Obligations.ModifyCombinationsRewriteThenOperate : Prop :=
  (HasEncodings .slo [(.zeroPage, 0x07), (.zeroPageX, 0x17), (.absolute, 0x0F), (.absoluteX, 0x1F), (.absoluteY, 0x1B),
    (.indirectX, 0x03), (.indirectY, 0x13)] ∧
   HasEncodings .rla [(.zeroPage, 0x27), (.zeroPageX, 0x37), (.absolute, 0x2F), (.absoluteX, 0x3F), (.absoluteY, 0x3B),
    (.indirectX, 0x23), (.indirectY, 0x33)] ∧
   HasEncodings .sre [(.zeroPage, 0x47), (.zeroPageX, 0x57), (.absolute, 0x4F), (.absoluteX, 0x5F), (.absoluteY, 0x5B),
    (.indirectX, 0x43), (.indirectY, 0x53)] ∧
   HasEncodings .rra [(.zeroPage, 0x67), (.zeroPageX, 0x77), (.absolute, 0x6F), (.absoluteX, 0x7F), (.absoluteY, 0x7B),
    (.indirectX, 0x63), (.indirectY, 0x73)] ∧
   HasEncodings .dcp [(.zeroPage, 0xC7), (.zeroPageX, 0xD7), (.absolute, 0xCF), (.absoluteX, 0xDF), (.absoluteY, 0xDB),
    (.indirectX, 0xC3), (.indirectY, 0xD3)] ∧
   HasEncodings .isc [(.zeroPage, 0xE7), (.zeroPageX, 0xF7), (.absolute, 0xEF), (.absoluteX, 0xFF), (.absoluteY, 0xFB),
    (.indirectX, 0xE3), (.indirectY, 0xF3)]) ∧
  ∀ (o : Operand) (s : State),
    ((Instr.slo o).wf = true → ∃ ea, (resolve o s).1.ea = some ea) ∧
    ∀ ea, (resolve o s).1.ea = some ea →
      let v := operandValue o s
      let t := done o (rmwCycles o.mode) s
      let left := shiftedLeft v false
      let rolled := shiftedLeft v s.p.c
      let right := shiftedRight v false
      let rored := shiftedRight v s.p.c
      let down := BitVec.ofNat 8 ((v.toNat + 255) % 256)
      let up := BitVec.ofNat 8 ((v.toNat + 1) % 256)
      exec (.slo o) s = .next
        { wrote ea left t with a := s.a ||| left, p := { nz (s.a ||| left) s.p with c := topBit v } } ∧
      exec (.rla o) s = .next
        { wrote ea rolled t with a := s.a &&& rolled, p := { nz (s.a &&& rolled) s.p with c := topBit v } } ∧
      exec (.sre o) s = .next
        { wrote ea right t with a := s.a ^^^ right, p := { nz (s.a ^^^ right) s.p with c := lowBit v } } ∧
      exec (.rra o) s = .next (added rored (lowBit v) (wrote ea rored t)) ∧
      exec (.dcp o) s = .next { wrote ea down t with p := compared s.a down s.p } ∧
      exec (.isc o) s = .next (subtracted up (wrote ea up t))

/-- R200: each combination leaves the machine as its two documented micro-operations do, one after the other against the
same operand: the first writes a byte at the effective address, the second takes that byte, on whatever bus. In the modes the
documented first micro-operation does not have (AbsoluteY, IndirectX, IndirectY) it stands as a term of the model that is not
well-formed (log entry 10). -/
def Obligations.CombinationsAreTwoMicroOperations : Prop :=
  ∀ (o : Operand) (s : State), (Instr.slo o).wf = true →
    ∀ pair ∈ [(Instr.slo o, Instr.asl o, Instr.ora), (.rla o, .rol o, .and), (.sre o, .lsr o, .eor),
        (.rra o, .ror o, .adc), (.dcp o, .dec o, .cmp), (.isc o, .inc o, .sbc)],
      ∃ t t1 t2 ea v, (resolve o s).1.ea = some ea ∧ exec pair.1 s = .next t ∧ exec pair.2.1 s = .next t1 ∧
        t1.out.accesses.getLast? = some (.write ea v) ∧ exec (pair.2.2 (.immediate v)) t1 = .next t2 ∧ SameMachine t t2

/-- R210, R211, R212, R214: the immediate combinations. D is ignored, and AXS does not read C or write V. -/
def Obligations.ImmediateCombinationsComputeResultAndFlags : Prop :=
  (∀ op v, ((Instr.anc op v).wf = true ↔ op = 0x0B ∨ op = 0x2B) ∧ encode (.anc op v) = [op, v] ∧
    encode (.alr v) = [0x4B, v] ∧ encode (.arr v) = [0x6B, v] ∧ encode (.axs v) = [0xCB, v]) ∧
  ∀ (op v : Byte) (s : State),
    let t := done (.immediate v) 2 s
    let m := s.a &&& v
    let r := shiftedRight m s.p.c
    let ax := s.a &&& s.x
    let diff := BitVec.ofInt 8 ((ax.toNat : Int) - v.toNat)
    exec (.anc op v) s = .next { t with a := m, p := { nz m s.p with c := topBit m } } ∧
    exec (.alr v) s = .next
      { t with a := shiftedRight m false, p := { nz (shiftedRight m false) s.p with c := lowBit m } } ∧
    exec (.arr v) s = .next { t with a := r, p := { nz r s.p with c := r.getLsbD 6, v := r.getLsbD 6 != r.getLsbD 5 } } ∧
    exec (.axs v) s = .next { t with x := diff, p := { nz diff s.p with c := decide (ax.toNat ≥ v.toNat) } }

/-- R207, R213: LAX immediate and XAA for whatever values the two open constants have. -/
def Obligations.MagicInstructionsUseTheOpenConstants : Prop :=
  (∀ v, encode (.laxImmediate v) = [0xAB, v] ∧ encode (.xaa v) = [0x8B, v]) ∧
  ∀ (v : Byte) (s : State),
    let t := done (.immediate v) 2 s
    let l := (s.a ||| Config.laxMagic) &&& v
    let x := (s.a ||| Config.xaaMagic) &&& s.x &&& v
    exec (.laxImmediate v) s = .next { t with a := l, x := l, p := nz l s.p } ∧
    exec (.xaa v) s = .next { t with a := x, p := nz x s.p }

/-- R216: LAS puts its operand AND SP into A, X and SP; N and Z; one cycle more on a page crossing. -/
def Obligations.LasLoadsThreeRegisters : Prop :=
  (∀ w, encode (.las w) = [0xBB, low w, high w]) ∧
  ∀ (w : Addr) (s : State),
    let r := operandValue (.absoluteY w) s &&& s.sp
    exec (.las w) s = .next
      { done (.absoluteY w) (4 + if pageCrossed (.absoluteY w) s then 1 else 0) s with
        a := r, x := r, sp := r, p := nz r s.p }

/-- R220: KIL leaves the state of its opcode fetch, Halted, and returns the status Halted with 0 cycles; no operand is
fetched, nothing is written, and the next step leaves it as it is. -/
def Obligations.KilHalts : Prop :=
  (∀ op, ((Instr.kil op).wf = true ↔
      op ∈ ([0x02, 0x12, 0x22, 0x32, 0x42, 0x52, 0x62, 0x72, 0x92, 0xB2, 0xD2, 0xF2] : List Byte)) ∧
    encode (.kil op) = [op]) ∧
  ∀ (op : Byte) (s : State),
    exec (.kil op) s = .next { s with run := .halted, out := { s.out with status := .halted, cycles := 0 } } ∧
    (s.run = .running → s.answer 0 s.pc = op → (Instr.kil op).wf = true → ∃ t, step s = .next t ∧ t.pc = s.pc + 1 ∧
      t.run = .halted ∧ t.out.status = .halted ∧ t.out.cycles = 0 ∧ t.out.report = none ∧
      t.out.accesses = [.read s.pc op] ∧ SameMachine { s with pc := t.pc, run := t.run, bus := s.bus.afterRead } t ∧
      ∃ u, step t = .next u ∧ SameMachine t u)

/-- R221, R242: an invalid opcode leaves the state of its opcode fetch, Faulted, and returns the status Faulted with 0 cycles
and the report of the byte and its address; no operand is fetched and nothing is written. -/
def Obligations.InvalidOpcodeFaults : Prop :=
  (∀ op, ((Instr.invalid op).wf = true ↔ op ∈ ([0x93, 0x9B, 0x9C, 0x9E, 0x9F] : List Byte)) ∧
    encode (.invalid op) = [op]) ∧
  ∀ (op : Byte) (s : State),
    exec (.invalid op) s = .next { s with
      run := .faulted
      out := { s.out with status := .faulted, cycles := 0, report := some { op := op, address := s.pc - 1 } } } ∧
    (s.run = .running → s.answer 0 s.pc = op → (Instr.invalid op).wf = true → ∃ t, step s = .next t ∧ t.pc = s.pc + 1 ∧
      t.run = .faulted ∧ t.out.status = .faulted ∧ t.out.cycles = 0 ∧
      t.out.report = some { op := op, address := s.pc } ∧ t.out.accesses = [.read s.pc op] ∧
      SameMachine { s with pc := t.pc, run := t.run, bus := s.bus.afterRead } t)
end

