-- ==== Sys2Proof/Laws/State.lean ====
section
/-! SUPPORT. What each named update of State leaves in each field: one lemma per field per update, true by rfl. -/

namespace Sys2Proof.Machine

/-! ### State.record -/

@[simp] theorem State.record_a (e : BusAccess) (s : State) : (s.record e).a = s.a := rfl
@[simp] theorem State.record_x (e : BusAccess) (s : State) : (s.record e).x = s.x := rfl
@[simp] theorem State.record_y (e : BusAccess) (s : State) : (s.record e).y = s.y := rfl
@[simp] theorem State.record_sp (e : BusAccess) (s : State) : (s.record e).sp = s.sp := rfl
@[simp] theorem State.record_pc (e : BusAccess) (s : State) : (s.record e).pc = s.pc := rfl
@[simp] theorem State.record_p (e : BusAccess) (s : State) : (s.record e).p = s.p := rfl
@[simp] theorem State.record_run (e : BusAccess) (s : State) : (s.record e).run = s.run := rfl
@[simp] theorem State.record_bus (e : BusAccess) (s : State) : (s.record e).bus = s.bus := rfl
@[simp] theorem State.record_mem (e : BusAccess) (s : State) : (s.record e).mem = s.mem := rfl
@[simp] theorem State.record_out (e : BusAccess) (s : State) : (s.record e).out = { s.out with accesses := s.out.accesses ++ [e] } := rfl

/-! ### State.afterReads -/

@[simp] theorem State.afterReads_a (l : List Addr) (s : State) : (s.afterReads l).a = s.a := rfl
@[simp] theorem State.afterReads_x (l : List Addr) (s : State) : (s.afterReads l).x = s.x := rfl
@[simp] theorem State.afterReads_y (l : List Addr) (s : State) : (s.afterReads l).y = s.y := rfl
@[simp] theorem State.afterReads_sp (l : List Addr) (s : State) : (s.afterReads l).sp = s.sp := rfl
@[simp] theorem State.afterReads_pc (l : List Addr) (s : State) : (s.afterReads l).pc = s.pc := rfl
@[simp] theorem State.afterReads_p (l : List Addr) (s : State) : (s.afterReads l).p = s.p := rfl
@[simp] theorem State.afterReads_run (l : List Addr) (s : State) : (s.afterReads l).run = s.run := rfl
@[simp] theorem State.afterReads_bus (l : List Addr) (s : State) : (s.afterReads l).bus = { s.bus with reads := s.bus.reads + l.length } := rfl
@[simp] theorem State.afterReads_mem (l : List Addr) (s : State) : (s.afterReads l).mem = s.mem := rfl
@[simp] theorem State.afterReads_out (l : List Addr) (s : State) : (s.afterReads l).out = { s.out with accesses := s.out.accesses ++ readsOf s l } := rfl

/-! ### State.setNZ -/

@[simp] theorem State.setNZ_a (v : Byte) (s : State) : (s.setNZ v).a = s.a := rfl
@[simp] theorem State.setNZ_x (v : Byte) (s : State) : (s.setNZ v).x = s.x := rfl
@[simp] theorem State.setNZ_y (v : Byte) (s : State) : (s.setNZ v).y = s.y := rfl
@[simp] theorem State.setNZ_sp (v : Byte) (s : State) : (s.setNZ v).sp = s.sp := rfl
@[simp] theorem State.setNZ_pc (v : Byte) (s : State) : (s.setNZ v).pc = s.pc := rfl
@[simp] theorem State.setNZ_p (v : Byte) (s : State) : (s.setNZ v).p = s.p.setNZ v := rfl
@[simp] theorem State.setNZ_run (v : Byte) (s : State) : (s.setNZ v).run = s.run := rfl
@[simp] theorem State.setNZ_bus (v : Byte) (s : State) : (s.setNZ v).bus = s.bus := rfl
@[simp] theorem State.setNZ_mem (v : Byte) (s : State) : (s.setNZ v).mem = s.mem := rfl
@[simp] theorem State.setNZ_out (v : Byte) (s : State) : (s.setNZ v).out = s.out := rfl

/-! ### State.loadA -/

@[simp] theorem State.loadA_a (v : Byte) (s : State) : (s.loadA v).a = v := rfl
@[simp] theorem State.loadA_x (v : Byte) (s : State) : (s.loadA v).x = s.x := rfl
@[simp] theorem State.loadA_y (v : Byte) (s : State) : (s.loadA v).y = s.y := rfl
@[simp] theorem State.loadA_sp (v : Byte) (s : State) : (s.loadA v).sp = s.sp := rfl
@[simp] theorem State.loadA_pc (v : Byte) (s : State) : (s.loadA v).pc = s.pc := rfl
@[simp] theorem State.loadA_p (v : Byte) (s : State) : (s.loadA v).p = s.p.setNZ v := rfl
@[simp] theorem State.loadA_run (v : Byte) (s : State) : (s.loadA v).run = s.run := rfl
@[simp] theorem State.loadA_bus (v : Byte) (s : State) : (s.loadA v).bus = s.bus := rfl
@[simp] theorem State.loadA_mem (v : Byte) (s : State) : (s.loadA v).mem = s.mem := rfl
@[simp] theorem State.loadA_out (v : Byte) (s : State) : (s.loadA v).out = s.out := rfl

/-! ### State.loadX -/

@[simp] theorem State.loadX_a (v : Byte) (s : State) : (s.loadX v).a = s.a := rfl
@[simp] theorem State.loadX_x (v : Byte) (s : State) : (s.loadX v).x = v := rfl
@[simp] theorem State.loadX_y (v : Byte) (s : State) : (s.loadX v).y = s.y := rfl
@[simp] theorem State.loadX_sp (v : Byte) (s : State) : (s.loadX v).sp = s.sp := rfl
@[simp] theorem State.loadX_pc (v : Byte) (s : State) : (s.loadX v).pc = s.pc := rfl
@[simp] theorem State.loadX_p (v : Byte) (s : State) : (s.loadX v).p = s.p.setNZ v := rfl
@[simp] theorem State.loadX_run (v : Byte) (s : State) : (s.loadX v).run = s.run := rfl
@[simp] theorem State.loadX_bus (v : Byte) (s : State) : (s.loadX v).bus = s.bus := rfl
@[simp] theorem State.loadX_mem (v : Byte) (s : State) : (s.loadX v).mem = s.mem := rfl
@[simp] theorem State.loadX_out (v : Byte) (s : State) : (s.loadX v).out = s.out := rfl

/-! ### State.loadY -/

@[simp] theorem State.loadY_a (v : Byte) (s : State) : (s.loadY v).a = s.a := rfl
@[simp] theorem State.loadY_x (v : Byte) (s : State) : (s.loadY v).x = s.x := rfl
@[simp] theorem State.loadY_y (v : Byte) (s : State) : (s.loadY v).y = v := rfl
@[simp] theorem State.loadY_sp (v : Byte) (s : State) : (s.loadY v).sp = s.sp := rfl
@[simp] theorem State.loadY_pc (v : Byte) (s : State) : (s.loadY v).pc = s.pc := rfl
@[simp] theorem State.loadY_p (v : Byte) (s : State) : (s.loadY v).p = s.p.setNZ v := rfl
@[simp] theorem State.loadY_run (v : Byte) (s : State) : (s.loadY v).run = s.run := rfl
@[simp] theorem State.loadY_bus (v : Byte) (s : State) : (s.loadY v).bus = s.bus := rfl
@[simp] theorem State.loadY_mem (v : Byte) (s : State) : (s.loadY v).mem = s.mem := rfl
@[simp] theorem State.loadY_out (v : Byte) (s : State) : (s.loadY v).out = s.out := rfl

/-! ### State.setC -/

@[simp] theorem State.setC_a (c : Bool) (s : State) : (s.setC c).a = s.a := rfl
@[simp] theorem State.setC_x (c : Bool) (s : State) : (s.setC c).x = s.x := rfl
@[simp] theorem State.setC_y (c : Bool) (s : State) : (s.setC c).y = s.y := rfl
@[simp] theorem State.setC_sp (c : Bool) (s : State) : (s.setC c).sp = s.sp := rfl
@[simp] theorem State.setC_pc (c : Bool) (s : State) : (s.setC c).pc = s.pc := rfl
@[simp] theorem State.setC_p (c : Bool) (s : State) : (s.setC c).p = { s.p with c := c } := rfl
@[simp] theorem State.setC_run (c : Bool) (s : State) : (s.setC c).run = s.run := rfl
@[simp] theorem State.setC_bus (c : Bool) (s : State) : (s.setC c).bus = s.bus := rfl
@[simp] theorem State.setC_mem (c : Bool) (s : State) : (s.setC c).mem = s.mem := rfl
@[simp] theorem State.setC_out (c : Bool) (s : State) : (s.setC c).out = s.out := rfl

/-! ### State.addToA -/

@[simp] theorem State.addToA_a (m : Byte) (c : Bool) (s : State) : (s.addToA m c).a = addResult s.a m c := rfl
@[simp] theorem State.addToA_x (m : Byte) (c : Bool) (s : State) : (s.addToA m c).x = s.x := rfl
@[simp] theorem State.addToA_y (m : Byte) (c : Bool) (s : State) : (s.addToA m c).y = s.y := rfl
@[simp] theorem State.addToA_sp (m : Byte) (c : Bool) (s : State) : (s.addToA m c).sp = s.sp := rfl
@[simp] theorem State.addToA_pc (m : Byte) (c : Bool) (s : State) : (s.addToA m c).pc = s.pc := rfl
@[simp] theorem State.addToA_p (m : Byte) (c : Bool) (s : State) : (s.addToA m c).p = s.p.addCore s.a m c := rfl
@[simp] theorem State.addToA_run (m : Byte) (c : Bool) (s : State) : (s.addToA m c).run = s.run := rfl
@[simp] theorem State.addToA_bus (m : Byte) (c : Bool) (s : State) : (s.addToA m c).bus = s.bus := rfl
@[simp] theorem State.addToA_mem (m : Byte) (c : Bool) (s : State) : (s.addToA m c).mem = s.mem := rfl
@[simp] theorem State.addToA_out (m : Byte) (c : Bool) (s : State) : (s.addToA m c).out = s.out := rfl

/-! ### State.compare -/

@[simp] theorem State.compare_a (r m : Byte) (s : State) : (s.compare r m).a = s.a := rfl
@[simp] theorem State.compare_x (r m : Byte) (s : State) : (s.compare r m).x = s.x := rfl
@[simp] theorem State.compare_y (r m : Byte) (s : State) : (s.compare r m).y = s.y := rfl
@[simp] theorem State.compare_sp (r m : Byte) (s : State) : (s.compare r m).sp = s.sp := rfl
@[simp] theorem State.compare_pc (r m : Byte) (s : State) : (s.compare r m).pc = s.pc := rfl
@[simp] theorem State.compare_p (r m : Byte) (s : State) : (s.compare r m).p = s.p.compare r m := rfl
@[simp] theorem State.compare_run (r m : Byte) (s : State) : (s.compare r m).run = s.run := rfl
@[simp] theorem State.compare_bus (r m : Byte) (s : State) : (s.compare r m).bus = s.bus := rfl
@[simp] theorem State.compare_mem (r m : Byte) (s : State) : (s.compare r m).mem = s.mem := rfl
@[simp] theorem State.compare_out (r m : Byte) (s : State) : (s.compare r m).out = s.out := rfl

/-! ### haltCore -/

@[simp] theorem haltCore_a (s : State) : (haltCore s).a = s.a := rfl
@[simp] theorem haltCore_x (s : State) : (haltCore s).x = s.x := rfl
@[simp] theorem haltCore_y (s : State) : (haltCore s).y = s.y := rfl
@[simp] theorem haltCore_sp (s : State) : (haltCore s).sp = s.sp := rfl
@[simp] theorem haltCore_pc (s : State) : (haltCore s).pc = s.pc := rfl
@[simp] theorem haltCore_p (s : State) : (haltCore s).p = s.p := rfl
@[simp] theorem haltCore_run (s : State) : (haltCore s).run = .halted := rfl
@[simp] theorem haltCore_bus (s : State) : (haltCore s).bus = s.bus := rfl
@[simp] theorem haltCore_mem (s : State) : (haltCore s).mem = s.mem := rfl
@[simp] theorem haltCore_out (s : State) : (haltCore s).out = { s.out with status := .halted, cycles := 0 } := rfl

/-! ### raiseInvalidOpcode -/

@[simp] theorem raiseInvalidOpcode_a (op : Byte) (at_ : Addr) (s : State) : (raiseInvalidOpcode op at_ s).a = s.a := rfl
@[simp] theorem raiseInvalidOpcode_x (op : Byte) (at_ : Addr) (s : State) : (raiseInvalidOpcode op at_ s).x = s.x := rfl
@[simp] theorem raiseInvalidOpcode_y (op : Byte) (at_ : Addr) (s : State) : (raiseInvalidOpcode op at_ s).y = s.y := rfl
@[simp] theorem raiseInvalidOpcode_sp (op : Byte) (at_ : Addr) (s : State) : (raiseInvalidOpcode op at_ s).sp = s.sp := rfl
@[simp] theorem raiseInvalidOpcode_pc (op : Byte) (at_ : Addr) (s : State) : (raiseInvalidOpcode op at_ s).pc = s.pc := rfl
@[simp] theorem raiseInvalidOpcode_p (op : Byte) (at_ : Addr) (s : State) : (raiseInvalidOpcode op at_ s).p = s.p := rfl
@[simp] theorem raiseInvalidOpcode_run (op : Byte) (at_ : Addr) (s : State) : (raiseInvalidOpcode op at_ s).run = .faulted := rfl
@[simp] theorem raiseInvalidOpcode_bus (op : Byte) (at_ : Addr) (s : State) : (raiseInvalidOpcode op at_ s).bus = s.bus := rfl
@[simp] theorem raiseInvalidOpcode_mem (op : Byte) (at_ : Addr) (s : State) : (raiseInvalidOpcode op at_ s).mem = s.mem := rfl
@[simp] theorem raiseInvalidOpcode_out (op : Byte) (at_ : Addr) (s : State) : (raiseInvalidOpcode op at_ s).out = { s.out with status := .faulted, cycles := 0, report := some { op := op, address := at_ } } := rfl

/-! ### State.clearOutput -/

@[simp] theorem State.clearOutput_a (s : State) : (s.clearOutput).a = s.a := rfl
@[simp] theorem State.clearOutput_x (s : State) : (s.clearOutput).x = s.x := rfl
@[simp] theorem State.clearOutput_y (s : State) : (s.clearOutput).y = s.y := rfl
@[simp] theorem State.clearOutput_sp (s : State) : (s.clearOutput).sp = s.sp := rfl
@[simp] theorem State.clearOutput_pc (s : State) : (s.clearOutput).pc = s.pc := rfl
@[simp] theorem State.clearOutput_p (s : State) : (s.clearOutput).p = s.p := rfl
@[simp] theorem State.clearOutput_run (s : State) : (s.clearOutput).run = s.run := rfl
@[simp] theorem State.clearOutput_bus (s : State) : (s.clearOutput).bus = s.bus := rfl
@[simp] theorem State.clearOutput_mem (s : State) : (s.clearOutput).mem = s.mem := rfl
@[simp] theorem State.clearOutput_out (s : State) : (s.clearOutput).out = StepOutput.empty := rfl

/-! ### State.emitTrace -/

@[simp] theorem State.emitTrace_a (pc0 : Addr) (op : Byte) (s : State) : (s.emitTrace pc0 op).a = s.a := rfl
@[simp] theorem State.emitTrace_x (pc0 : Addr) (op : Byte) (s : State) : (s.emitTrace pc0 op).x = s.x := rfl
@[simp] theorem State.emitTrace_y (pc0 : Addr) (op : Byte) (s : State) : (s.emitTrace pc0 op).y = s.y := rfl
@[simp] theorem State.emitTrace_sp (pc0 : Addr) (op : Byte) (s : State) : (s.emitTrace pc0 op).sp = s.sp := rfl
@[simp] theorem State.emitTrace_pc (pc0 : Addr) (op : Byte) (s : State) : (s.emitTrace pc0 op).pc = s.pc := rfl
@[simp] theorem State.emitTrace_p (pc0 : Addr) (op : Byte) (s : State) : (s.emitTrace pc0 op).p = s.p := rfl
@[simp] theorem State.emitTrace_run (pc0 : Addr) (op : Byte) (s : State) : (s.emitTrace pc0 op).run = s.run := rfl
@[simp] theorem State.emitTrace_bus (pc0 : Addr) (op : Byte) (s : State) : (s.emitTrace pc0 op).bus = s.bus := rfl
@[simp] theorem State.emitTrace_mem (pc0 : Addr) (op : Byte) (s : State) : (s.emitTrace pc0 op).mem = s.mem := rfl
@[simp] theorem State.emitTrace_out (pc0 : Addr) (op : Byte) (s : State) : (s.emitTrace pc0 op).out = { s.out with trace := some { pc0 := pc0, op := op, a := s.a, x := s.x, y := s.y, p := s.p.toByte, sp := s.sp } } := rfl

/-! ### State.complete -/

@[simp] theorem State.complete_a (base extra : Nat) (crossed : Bool) (r : Nat) (s : State) : (s.complete base extra crossed r).a = s.a := rfl
@[simp] theorem State.complete_x (base extra : Nat) (crossed : Bool) (r : Nat) (s : State) : (s.complete base extra crossed r).x = s.x := rfl
@[simp] theorem State.complete_y (base extra : Nat) (crossed : Bool) (r : Nat) (s : State) : (s.complete base extra crossed r).y = s.y := rfl
@[simp] theorem State.complete_sp (base extra : Nat) (crossed : Bool) (r : Nat) (s : State) : (s.complete base extra crossed r).sp = s.sp := rfl
@[simp] theorem State.complete_pc (base extra : Nat) (crossed : Bool) (r : Nat) (s : State) : (s.complete base extra crossed r).pc = s.pc := rfl
@[simp] theorem State.complete_p (base extra : Nat) (crossed : Bool) (r : Nat) (s : State) : (s.complete base extra crossed r).p = s.p := rfl
@[simp] theorem State.complete_run (base extra : Nat) (crossed : Bool) (r : Nat) (s : State) : (s.complete base extra crossed r).run = s.run := rfl
@[simp] theorem State.complete_bus (base extra : Nat) (crossed : Bool) (r : Nat) (s : State) : (s.complete base extra crossed r).bus = s.bus := rfl
@[simp] theorem State.complete_mem (base extra : Nat) (crossed : Bool) (r : Nat) (s : State) : (s.complete base extra crossed r).mem = s.mem := rfl
@[simp] theorem State.complete_out (base extra : Nat) (crossed : Bool) (r : Nat) (s : State) : (s.complete base extra crossed r).out = { s.out with status := .ok, cycles := base + (if crossed then extra else 0) + r } := rfl

/-! ### State.idle -/

@[simp] theorem State.idle_a (status : Status) (s : State) : (s.idle status).a = s.a := rfl
@[simp] theorem State.idle_x (status : Status) (s : State) : (s.idle status).x = s.x := rfl
@[simp] theorem State.idle_y (status : Status) (s : State) : (s.idle status).y = s.y := rfl
@[simp] theorem State.idle_sp (status : Status) (s : State) : (s.idle status).sp = s.sp := rfl
@[simp] theorem State.idle_pc (status : Status) (s : State) : (s.idle status).pc = s.pc := rfl
@[simp] theorem State.idle_p (status : Status) (s : State) : (s.idle status).p = s.p := rfl
@[simp] theorem State.idle_run (status : Status) (s : State) : (s.idle status).run = s.run := rfl
@[simp] theorem State.idle_bus (status : Status) (s : State) : (s.idle status).bus = s.bus := rfl
@[simp] theorem State.idle_mem (status : Status) (s : State) : (s.idle status).mem = s.mem := rfl
@[simp] theorem State.idle_out (status : Status) (s : State) : (s.idle status).out = { StepOutput.empty with status := status } := rfl

/-! ### State.applyReset -/

@[simp] theorem State.applyReset_a (s : State) : (s.applyReset).a = State.reset.a := rfl
@[simp] theorem State.applyReset_x (s : State) : (s.applyReset).x = State.reset.x := rfl
@[simp] theorem State.applyReset_y (s : State) : (s.applyReset).y = State.reset.y := rfl
@[simp] theorem State.applyReset_sp (s : State) : (s.applyReset).sp = State.reset.sp := rfl
@[simp] theorem State.applyReset_pc (s : State) : (s.applyReset).pc = State.reset.pc := rfl
@[simp] theorem State.applyReset_p (s : State) : (s.applyReset).p = State.reset.p := rfl
@[simp] theorem State.applyReset_run (s : State) : (s.applyReset).run = State.reset.run := rfl
@[simp] theorem State.applyReset_bus (s : State) : (s.applyReset).bus = s.bus := rfl
@[simp] theorem State.applyReset_mem (s : State) : (s.applyReset).mem = s.mem := rfl
@[simp] theorem State.applyReset_out (s : State) : (s.applyReset).out = State.reset.out := rfl

/-! ### State.hostWrite -/

@[simp] theorem State.hostWrite_a (a : Addr) (v : Byte) (s : State) : (s.hostWrite a v).a = s.a := rfl
@[simp] theorem State.hostWrite_x (a : Addr) (v : Byte) (s : State) : (s.hostWrite a v).x = s.x := rfl
@[simp] theorem State.hostWrite_y (a : Addr) (v : Byte) (s : State) : (s.hostWrite a v).y = s.y := rfl
@[simp] theorem State.hostWrite_sp (a : Addr) (v : Byte) (s : State) : (s.hostWrite a v).sp = s.sp := rfl
@[simp] theorem State.hostWrite_pc (a : Addr) (v : Byte) (s : State) : (s.hostWrite a v).pc = s.pc := rfl
@[simp] theorem State.hostWrite_p (a : Addr) (v : Byte) (s : State) : (s.hostWrite a v).p = s.p := rfl
@[simp] theorem State.hostWrite_run (a : Addr) (v : Byte) (s : State) : (s.hostWrite a v).run = s.run := rfl
@[simp] theorem State.hostWrite_bus (a : Addr) (v : Byte) (s : State) : (s.hostWrite a v).bus = s.bus := rfl
@[simp] theorem State.hostWrite_mem (a : Addr) (v : Byte) (s : State) : (s.hostWrite a v).mem = s.mem.write a v := rfl
@[simp] theorem State.hostWrite_out (a : Addr) (v : Byte) (s : State) : (s.hostWrite a v).out = s.out := rfl

/-! ### State.hostBus -/

@[simp] theorem State.hostBus_a (b : Bus) (s : State) : (s.hostBus b).a = s.a := rfl
@[simp] theorem State.hostBus_x (b : Bus) (s : State) : (s.hostBus b).x = s.x := rfl
@[simp] theorem State.hostBus_y (b : Bus) (s : State) : (s.hostBus b).y = s.y := rfl
@[simp] theorem State.hostBus_sp (b : Bus) (s : State) : (s.hostBus b).sp = s.sp := rfl
@[simp] theorem State.hostBus_pc (b : Bus) (s : State) : (s.hostBus b).pc = s.pc := rfl
@[simp] theorem State.hostBus_p (b : Bus) (s : State) : (s.hostBus b).p = s.p := rfl
@[simp] theorem State.hostBus_run (b : Bus) (s : State) : (s.hostBus b).run = s.run := rfl
@[simp] theorem State.hostBus_bus (b : Bus) (s : State) : (s.hostBus b).bus = b := rfl
@[simp] theorem State.hostBus_mem (b : Bus) (s : State) : (s.hostBus b).mem = s.mem := rfl
@[simp] theorem State.hostBus_out (b : Bus) (s : State) : (s.hostBus b).out = s.out := rfl

/-! ### State.placeAtPc -/

@[simp] theorem State.placeAtPc_a (b0 b1 b2 : Byte) (s : State) : (s.placeAtPc b0 b1 b2).a = s.a := rfl
@[simp] theorem State.placeAtPc_x (b0 b1 b2 : Byte) (s : State) : (s.placeAtPc b0 b1 b2).x = s.x := rfl
@[simp] theorem State.placeAtPc_y (b0 b1 b2 : Byte) (s : State) : (s.placeAtPc b0 b1 b2).y = s.y := rfl
@[simp] theorem State.placeAtPc_sp (b0 b1 b2 : Byte) (s : State) : (s.placeAtPc b0 b1 b2).sp = s.sp := rfl
@[simp] theorem State.placeAtPc_pc (b0 b1 b2 : Byte) (s : State) : (s.placeAtPc b0 b1 b2).pc = s.pc := rfl
@[simp] theorem State.placeAtPc_p (b0 b1 b2 : Byte) (s : State) : (s.placeAtPc b0 b1 b2).p = s.p := rfl
@[simp] theorem State.placeAtPc_run (b0 b1 b2 : Byte) (s : State) : (s.placeAtPc b0 b1 b2).run = s.run := rfl
@[simp] theorem State.placeAtPc_bus (b0 b1 b2 : Byte) (s : State) : (s.placeAtPc b0 b1 b2).bus = s.bus := rfl
@[simp] theorem State.placeAtPc_mem (b0 b1 b2 : Byte) (s : State) : (s.placeAtPc b0 b1 b2).mem = ((s.mem.write s.pc b0).write (s.pc + 1) b1).write (s.pc + 2) b2 := rfl
@[simp] theorem State.placeAtPc_out (b0 b1 b2 : Byte) (s : State) : (s.placeAtPc b0 b1 b2).out = s.out := rfl

/-! ### Flags.setNZ -/

@[simp] theorem Flags.setNZ_n (v : Byte) (p : Flags) : (p.setNZ v).n = v.getLsbD 7 := rfl
@[simp] theorem Flags.setNZ_v (v : Byte) (p : Flags) : (p.setNZ v).v = p.v := rfl
@[simp] theorem Flags.setNZ_u (v : Byte) (p : Flags) : (p.setNZ v).u = p.u := rfl
@[simp] theorem Flags.setNZ_b (v : Byte) (p : Flags) : (p.setNZ v).b = p.b := rfl
@[simp] theorem Flags.setNZ_d (v : Byte) (p : Flags) : (p.setNZ v).d = p.d := rfl
@[simp] theorem Flags.setNZ_i (v : Byte) (p : Flags) : (p.setNZ v).i = p.i := rfl
@[simp] theorem Flags.setNZ_z (v : Byte) (p : Flags) : (p.setNZ v).z = (v == 0) := rfl
@[simp] theorem Flags.setNZ_c (v : Byte) (p : Flags) : (p.setNZ v).c = p.c := rfl

/-! ### Flags.compare -/

@[simp] theorem Flags.compare_n (r m : Byte) (p : Flags) : (p.compare r m).n = (r - m).getLsbD 7 := rfl
@[simp] theorem Flags.compare_v (r m : Byte) (p : Flags) : (p.compare r m).v = p.v := rfl
@[simp] theorem Flags.compare_u (r m : Byte) (p : Flags) : (p.compare r m).u = p.u := rfl
@[simp] theorem Flags.compare_b (r m : Byte) (p : Flags) : (p.compare r m).b = p.b := rfl
@[simp] theorem Flags.compare_d (r m : Byte) (p : Flags) : (p.compare r m).d = p.d := rfl
@[simp] theorem Flags.compare_i (r m : Byte) (p : Flags) : (p.compare r m).i = p.i := rfl
@[simp] theorem Flags.compare_z (r m : Byte) (p : Flags) : (p.compare r m).z = (r == m) := rfl
@[simp] theorem Flags.compare_c (r m : Byte) (p : Flags) : (p.compare r m).c = decide (m.toNat ≤ r.toNat) := rfl

/-! ### Flags.bitTest -/

@[simp] theorem Flags.bitTest_n (a m : Byte) (p : Flags) : (p.bitTest a m).n = m.getLsbD 7 := rfl
@[simp] theorem Flags.bitTest_v (a m : Byte) (p : Flags) : (p.bitTest a m).v = m.getLsbD 6 := rfl
@[simp] theorem Flags.bitTest_u (a m : Byte) (p : Flags) : (p.bitTest a m).u = p.u := rfl
@[simp] theorem Flags.bitTest_b (a m : Byte) (p : Flags) : (p.bitTest a m).b = p.b := rfl
@[simp] theorem Flags.bitTest_d (a m : Byte) (p : Flags) : (p.bitTest a m).d = p.d := rfl
@[simp] theorem Flags.bitTest_i (a m : Byte) (p : Flags) : (p.bitTest a m).i = p.i := rfl
@[simp] theorem Flags.bitTest_z (a m : Byte) (p : Flags) : (p.bitTest a m).z = ((a &&& m) == 0) := rfl
@[simp] theorem Flags.bitTest_c (a m : Byte) (p : Flags) : (p.bitTest a m).c = p.c := rfl

/-! ### Flags.addCore -/

@[simp] theorem Flags.addCore_n (a m : Byte) (c : Bool) (p : Flags) : (p.addCore a m c).n = (addResult a m c).getLsbD 7 := rfl
@[simp] theorem Flags.addCore_v (a m : Byte) (c : Bool) (p : Flags) : (p.addCore a m c).v = ((a.getLsbD 7 == m.getLsbD 7) && ((addResult a m c).getLsbD 7 != a.getLsbD 7)) := rfl
@[simp] theorem Flags.addCore_u (a m : Byte) (c : Bool) (p : Flags) : (p.addCore a m c).u = p.u := rfl
@[simp] theorem Flags.addCore_b (a m : Byte) (c : Bool) (p : Flags) : (p.addCore a m c).b = p.b := rfl
@[simp] theorem Flags.addCore_d (a m : Byte) (c : Bool) (p : Flags) : (p.addCore a m c).d = p.d := rfl
@[simp] theorem Flags.addCore_i (a m : Byte) (c : Bool) (p : Flags) : (p.addCore a m c).i = p.i := rfl
@[simp] theorem Flags.addCore_z (a m : Byte) (c : Bool) (p : Flags) : (p.addCore a m c).z = (addResult a m c == 0) := rfl
@[simp] theorem Flags.addCore_c (a m : Byte) (c : Bool) (p : Flags) : (p.addCore a m c).c = decide (a.toNat + m.toNat + c.toNat > 255) := rfl

/-! ### Flags.arr -/

@[simp] theorem Flags.arr_n (r : Byte) (p : Flags) : (p.arr r).n = r.getLsbD 7 := rfl
@[simp] theorem Flags.arr_v (r : Byte) (p : Flags) : (p.arr r).v = (r.getLsbD 6 ^^ r.getLsbD 5) := rfl
@[simp] theorem Flags.arr_u (r : Byte) (p : Flags) : (p.arr r).u = p.u := rfl
@[simp] theorem Flags.arr_b (r : Byte) (p : Flags) : (p.arr r).b = p.b := rfl
@[simp] theorem Flags.arr_d (r : Byte) (p : Flags) : (p.arr r).d = p.d := rfl
@[simp] theorem Flags.arr_i (r : Byte) (p : Flags) : (p.arr r).i = p.i := rfl
@[simp] theorem Flags.arr_z (r : Byte) (p : Flags) : (p.arr r).z = (r == 0) := rfl
@[simp] theorem Flags.arr_c (r : Byte) (p : Flags) : (p.arr r).c = r.getLsbD 6 := rfl

/-! ### Flags.unpack -/

@[simp] theorem Flags.unpack_n (v : Byte) : (Flags.unpack v).n = v.getLsbD 7 := rfl
@[simp] theorem Flags.unpack_v (v : Byte) : (Flags.unpack v).v = v.getLsbD 6 := rfl
@[simp] theorem Flags.unpack_u (v : Byte) : (Flags.unpack v).u = true := rfl
@[simp] theorem Flags.unpack_b (v : Byte) : (Flags.unpack v).b = false := rfl
@[simp] theorem Flags.unpack_d (v : Byte) : (Flags.unpack v).d = v.getLsbD 3 := rfl
@[simp] theorem Flags.unpack_i (v : Byte) : (Flags.unpack v).i = v.getLsbD 2 := rfl
@[simp] theorem Flags.unpack_z (v : Byte) : (Flags.unpack v).z = v.getLsbD 1 := rfl
@[simp] theorem Flags.unpack_c (v : Byte) : (Flags.unpack v).c = v.getLsbD 0 := rfl

end Sys2Proof.Machine
end

