-- ==== Sys2Proof/Laws/Memory.lean ====
section
/-! SUPPORT. The laws of memory and of the bus: every operation keeps the canonical form, a read after a write. -/

namespace Sys2Proof.Machine

theorem cellsWf_cons {low k : Nat} {v : Byte} {rest : List Host.Cell} :
    cellsWf low ((k, v) :: rest) = true ↔
      low ≤ k ∧ k < 65536 ∧ v ≠ Config.unlistedByte ∧ cellsWf (k + 1) rest = true := by
  simp only [cellsWf, Bool.and_eq_true, decide_eq_true_eq, and_assoc]

/-- A canonical list is canonical from any lower bound. -/
theorem cellsWf_of_le {l : List Host.Cell} {low low' : Nat} (hle : low' ≤ low) (h : cellsWf low l = true) :
    cellsWf low' l = true := by
  cases l with
  | nil => rfl
  | cons cell rest =>
    obtain ⟨k, v⟩ := cell
    rw [cellsWf_cons] at h ⊢
    exact ⟨hle.trans h.1, h.2⟩

/-- Below its lower bound a canonical list has no entry. -/
theorem readCells_below {l : List Host.Cell} {low a : Nat} (h : cellsWf low l = true) (ha : a < low) :
    readCells l a = Config.unlistedByte := by
  induction l generalizing low with
  | nil => rfl
  | cons cell rest ih =>
    obtain ⟨k, v⟩ := cell
    obtain ⟨hk, -, -, hrest⟩ := cellsWf_cons.1 h
    rw [readCells, if_neg (by omega)]
    exact ih hrest (by omega)

/-- A write keeps the canonical form. -/
theorem writeCells_wf {l : List Host.Cell} {low a : Nat} {v : Byte} (h : cellsWf low l = true) (hlow : low ≤ a)
    (ha : a < 65536) : cellsWf low (writeCells a v l) = true := by
  induction l generalizing low with
  | nil =>
    rw [writeCells]
    split
    · rfl
    · exact cellsWf_cons.2 ⟨hlow, ha, ‹_›, rfl⟩
  | cons cell rest ih =>
    obtain ⟨k, w⟩ := cell
    have hcons := cellsWf_cons.1 h
    rw [writeCells]
    split
    · split
      · exact h
      · exact cellsWf_cons.2 ⟨hlow, ha, ‹_›, cellsWf_cons.2 ⟨by omega, hcons.2⟩⟩
    · split
      · subst_vars
        split
        · exact cellsWf_of_le (by omega) hcons.2.2.2
        · exact cellsWf_cons.2 ⟨hlow, ha, ‹_›, hcons.2.2.2⟩
      · exact cellsWf_cons.2 ⟨hcons.1, hcons.2.1, hcons.2.2.1, ih hcons.2.2.2 (by omega)⟩

/-- A write leaves every other address alone. -/
theorem readCells_writeCells_ne {l : List Host.Cell} {a b : Nat} {v : Byte} (hab : a ≠ b) :
    readCells (writeCells a v l) b = readCells l b := by
  induction l with
  | nil => rw [writeCells]; split <;> simp [readCells, hab]
  | cons cell rest ih =>
    obtain ⟨k, w⟩ := cell
    rw [writeCells]
    split
    · split <;> simp [readCells, hab]
    · split
      · subst_vars
        split <;> simp [readCells, hab]
      · simp [readCells, ih]

/-- A read after a write to the same address gives the byte written. -/
theorem readCells_writeCells_eq {l : List Host.Cell} {low a : Nat} {v : Byte} (h : cellsWf low l = true) :
    readCells (writeCells a v l) a = v := by
  induction l generalizing low with
  | nil => rw [writeCells]; split <;> simp_all [readCells]
  | cons cell rest ih =>
    obtain ⟨k, w⟩ := cell
    have hrest := (cellsWf_cons.1 h).2.2.2
    rw [writeCells]
    split
    · split
      · subst_vars
        rw [readCells, if_neg (by omega)]
        exact readCells_below hrest (by omega)
      · simp [readCells]
    · split
      · subst_vars
        split
        · subst_vars
          exact readCells_below hrest (by omega)
        · simp [readCells]
      · rw [readCells, if_neg (by omega)]
        exact ih hrest

theorem Memory.write_wf {m : Memory} (h : m.wf = true) (a : Addr) (v : Byte) : (m.write a v).wf = true :=
  writeCells_wf h (Nat.zero_le _) a.isLt

@[simp] theorem Memory.read_write_same {m : Memory} (h : m.wf = true) (a : Addr) (v : Byte) :
    (m.write a v).read a = v :=
  readCells_writeCells_eq h

theorem Memory.read_write_ne (m : Memory) {a b : Addr} (hab : a ≠ b) (v : Byte) : (m.write a v).read b = m.read b :=
  readCells_writeCells_ne (fun h => hab (BitVec.eq_of_toNat_eq h))

/-- Nothing listed is canonical. -/
theorem reset_mem_wf : State.reset.mem.wf = true := rfl

/-- A write on the bus keeps the canonical form. -/
theorem Bus.store_wf (b : Bus) {m : Memory} (h : m.wf = true) (a : Addr) (v : Byte) : (b.store a v m).wf = true := by
  unfold Bus.store
  split
  · exact Memory.write_wf h _ v
  · exact h

/-- A write on the bus leaves every byte but the one behind its address. -/
theorem Bus.read_store_ne (b : Bus) (m : Memory) {a c : Addr} (v : Byte) (h : c ∉ (b.storeCell a).toList) :
    (b.store a v m).read c = m.read c := by
  unfold Bus.store
  split
  · next c' hc => exact Memory.read_write_ne m (fun e => h (by simp [hc, e])) v
  · rfl

/-- On a bus without regions every address is its own byte of RAM. -/
theorem Bus.port_of_flat {b : Bus} (h : b.regions = []) (a : Addr) : b.port a = .ram a := by
  simp [Bus.port, h]

theorem Bus.storeCell_of_flat {b : Bus} (h : b.regions = []) (a : Addr) : b.storeCell a = some a := by
  simp [Bus.storeCell, Bus.port_of_flat h]

theorem Bus.store_of_flat {b : Bus} (h : b.regions = []) (a : Addr) (v : Byte) (m : Memory) :
    b.store a v m = m.write a v := by
  simp [Bus.store, Bus.storeCell_of_flat h]

theorem State.answer_of_flat {s : State} (h : s.bus.regions = []) (k : Nat) (a : Addr) : s.answer k a = s.mem.read a := by
  simp [State.answer, Bus.port_of_flat h]

theorem memWrite_wf {s : State} (h : s.mem.wf = true) (a : Addr) (v : Byte) : (memWrite a v s).mem.wf = true :=
  Bus.store_wf s.bus h a v

theorem hostWrite_wf {s : State} (h : s.mem.wf = true) (a : Addr) (v : Byte) : (s.hostWrite a v).mem.wf = true :=
  Memory.write_wf h a v

theorem placeAtPc_wf {s : State} (h : s.mem.wf = true) (b0 b1 b2 : Byte) : (s.placeAtPc b0 b1 b2).mem.wf = true :=
  Memory.write_wf (Memory.write_wf (Memory.write_wf h _ _) _ _) _ _

theorem withFetchWord_wf {s : State} (h : s.mem.wf = true) (nbits w : Nat) :
    (s.withFetchWord nbits w).mem.wf = true :=
  placeAtPc_wf h _ _ _

end Sys2Proof.Machine
end

