-- ==== Sys2Proof/Laws/Ops.lean ====
section
/-! SUPPORT. For each shared operation, once, everything it does: the state it leaves written out. -/

namespace Sys2Proof.Machine

/-- Steps of the stack pointer collect, modulo 256. -/
theorem sp_steps (sp : Byte) :
    sp - 1#8 - 1#8 = sp - 2#8 ∧ sp - 2#8 - 1#8 = sp - 3#8 ∧ sp + 1#8 + 1#8 = sp + 2#8 ∧ sp + 1#8 + 2#8 = sp + 3#8 := by
  refine ⟨?_, ?_, ?_, ?_⟩ <;> bv_omega

@[simp] theorem memRead_fst (a : Addr) (s : State) : (memRead a s).1 = s.answer 0 a := rfl

/-- A read is recorded, and the bus has answered one more; nothing else changes. -/
theorem memRead_snd (a : Addr) (s : State) : (memRead a s).2 = s.afterReads [a] := rfl

theorem memWrite_eq (a : Addr) (v : Byte) (s : State) :
    memWrite a v s = { s with
      mem := s.bus.store a v s.mem
      out := { s.out with accesses := s.out.accesses ++ [.write a v] } } := rfl

/-- What the bus answers depends on nothing but the bus and memory. -/
theorem answer_congr {s t : State} (hb : t.bus = s.bus) (hm : t.mem = s.mem) : t.answer = s.answer := by
  funext k a
  simp only [State.answer, hb, hm]

theorem readsFrom_congr {s t : State} (hb : t.bus = s.bus) (hm : t.mem = s.mem) (k : Nat) (l : List Addr) :
    readsFrom t k l = readsFrom s k l := by
  induction l generalizing k with
  | nil => rfl
  | cons a rest ih => simp only [readsFrom, ih, answer_congr hb hm]

/-- Reads further on: the state after `l` answers as the state does after so many more reads. -/
@[simp] theorem answer_afterReads (l : List Addr) (s : State) (k : Nat) (a : Addr) :
    (s.afterReads l).answer k a = s.answer (l.length + k) a := by
  simp only [State.answer, State.afterReads, Bus.port, Bus.deviceAnswer, Nat.add_assoc]

theorem readsFrom_afterReads (l : List Addr) (s : State) (k : Nat) (l' : List Addr) :
    readsFrom (s.afterReads l) k l' = readsFrom s (l.length + k) l' := by
  induction l' generalizing k with
  | nil => rfl
  | cons a rest ih => simp only [readsFrom, ih, answer_afterReads, Nat.add_assoc]

theorem readsFrom_append (s : State) (k : Nat) (l l' : List Addr) :
    readsFrom s k (l ++ l') = readsFrom s k l ++ readsFrom s (k + l.length) l' := by
  induction l generalizing k with
  | nil => simp [readsFrom]
  | cons a rest ih => simp [readsFrom, ih, Nat.add_assoc, Nat.add_comm 1]

@[simp] theorem afterReads_nil (s : State) : s.afterReads [] = s := by simp [State.afterReads, readsOf, readsFrom]

@[simp] theorem afterReads_afterReads (l l' : List Addr) (s : State) :
    (s.afterReads l).afterReads l' = s.afterReads (l ++ l') := by
  have h : readsOf (s.afterReads l) l' = readsFrom s l.length l' := readsFrom_afterReads l s 0 l'
  rw [State.afterReads, h]
  simp [State.afterReads, readsOf, readsFrom_append, Nat.add_assoc]

/-- `ReadWord`: the word, and the two reads. -/
theorem readWord_eq (a : Addr) (s : State) : readWord a s = (s.word a (a + 1), s.afterReads [a, a + 1]) := by
  simp [readWord, memRead_snd, State.word]

/-- `ReadWordZP`: the word, and the two reads in page zero. -/
theorem readWordZP_eq (zp : Byte) (s : State) :
    readWordZP zp s = (s.wordZP zp, s.afterReads [zext16 zp, zext16 (zp + 1)]) := by
  simp [readWordZP, memRead_snd, State.wordZP, State.word]

/-- `Fetch8`: the byte at PC, PC advanced, the read. -/
theorem fetch8_eq (s : State) : fetch8 s = (s.answer 0 s.pc, { s.afterReads [s.pc] with pc := s.pc + 1 }) := rfl

/-- `Push8`: the byte written, SP one lower, the write. -/
theorem push8_eq (v : Byte) (s : State) :
    push8 v s = { s with
      sp := s.sp - 1
      mem := s.bus.store (stackAddr s.sp) v s.mem
      out := { s.out with accesses := s.out.accesses ++ [.write (stackAddr s.sp) v] } } := rfl

/-- `Pull8`: the byte above SP, SP one higher, the read. -/
theorem pull8_eq (s : State) :
    pull8 s = (s.answer 0 (stackAddr (s.sp + 1)), { s.afterReads [stackAddr (s.sp + 1)] with sp := s.sp + 1 }) := rfl

/-- Pushing a word: high byte first, two bytes written, SP two lower. -/
theorem pushWord_eq (w : Addr) (s : State) :
    pushWord w s = { s with
      sp := s.sp - 2
      mem := s.bus.store (stackAddr (s.sp - 1)) (loByte w) (s.bus.store (stackAddr s.sp) (hiByte w) s.mem)
      out := { s.out with
        accesses := s.out.accesses ++
          [.write (stackAddr s.sp) (hiByte w), .write (stackAddr (s.sp - 1)) (loByte w)] } } := by
  simp [pushWord, push8_eq, sp_steps]

/-- Pulling a word: low byte first, SP two higher. -/
theorem pullWord_eq (s : State) :
    pullWord s = (s.word (stackAddr (s.sp + 1)) (stackAddr (s.sp + 2)),
      { s.afterReads [stackAddr (s.sp + 1), stackAddr (s.sp + 2)] with sp := s.sp + 2 }) := by
  simp [pullWord, pull8_eq, State.word, State.afterReads, readsOf, readsFrom, State.answer, Bus.port, Bus.deviceAnswer,
    sp_steps]

/-- What is on the stack while a trap is taken: PC high, PC low, the flags with B and U set; SP three lower. -/
def trapSaved (s : State) : State :=
  { s with
    sp := s.sp - 3
    mem := s.bus.store (stackAddr (s.sp - 2)) s.p.packBrk
      (s.bus.store (stackAddr (s.sp - 1)) (loByte s.pc) (s.bus.store (stackAddr s.sp) (hiByte s.pc) s.mem))
    out := { s.out with
      accesses := s.out.accesses ++
        [.write (stackAddr s.sp) (hiByte s.pc), .write (stackAddr (s.sp - 1)) (loByte s.pc),
         .write (stackAddr (s.sp - 2)) s.p.packBrk] } }

/-- Trap entry: what is pushed, SP three lower, PC from the vector; registers, flags and run state as before. -/
theorem takeTrap_eq (s : State) :
    takeTrap s = { (trapSaved s).afterReads [Config.brkVector, Config.brkVector + 1] with
      pc := (trapSaved s).word Config.brkVector (Config.brkVector + 1) } := by
  simp [takeTrap, push8_eq, pushWord_eq, readWord_eq, trapSaved, sp_steps]

/-- Trap return: flags, then PC, SP three higher. -/
theorem returnFromTrap_eq (s : State) :
    returnFromTrap s =
      { s.afterReads [stackAddr (s.sp + 1), stackAddr (s.sp + 2), stackAddr (s.sp + 3)] with
        sp := s.sp + 3
        p := Flags.unpack (s.answer 0 (stackAddr (s.sp + 1)))
        pc := wordOf (s.answer 2 (stackAddr (s.sp + 3))) (s.answer 1 (stackAddr (s.sp + 2))) } := by
  simp [returnFromTrap, pull8_eq, pullWord_eq, State.word, State.afterReads, readsOf, readsFrom, State.answer, Bus.port,
    Bus.deviceAnswer, Nat.add_assoc, sp_steps]

@[simp] theorem writeBack_none (v : Byte) (s : State) : writeBack none v s = { s with a := v } := rfl
@[simp] theorem writeBack_some (a : Addr) (v : Byte) (s : State) : writeBack (some a) v s = memWrite a v s := rfl
@[simp] theorem storeAt_none (v : Byte) (s : State) : storeAt none v s = s := rfl
@[simp] theorem storeAt_some (a : Addr) (v : Byte) (s : State) : storeAt (some a) v s = memWrite a v s := rfl
@[simp] theorem jumpTo_some (a : Addr) (s : State) : jumpTo (some a) s = { s with pc := a } := rfl

end Sys2Proof.Machine
end

