-- ==== Sys2Proof/Laws/Operands.lean ====
section
/-! SUPPORT. The resolver and the instruction shapes, once: the result as a pure function of the state, and the state
after, which differs in the recorded reads only. -/

namespace Sys2Proof.Machine

theorem resolve_eq (o : Operand) (s : State) :
    resolve o s =
      ({ value := operandValue o s, ea := effectiveAddr o s, crossed := pageCrossed o s },
       s.afterReads (operandReadAddrs o s)) := by
  cases o <;>
    simp [resolve, readOperandAt, resolveAbsoluteIndexed, operandValue, effectiveAddr, pageCrossed, operandReadAddrs,
      memRead_snd, readWordZP_eq, State.word]

/-- Every instruction dispatched through an operand: its routine runs on the operand's value and address, in the state
with the operand's reads recorded. -/
theorem runOperand_eq (base crossExtra : Nat) (o : Operand) (routine : Byte → Option Addr → State → State) (s : State) :
    runOperand base crossExtra o routine s =
      .next ((routine (operandValue o s) (effectiveAddr o s)
        (s.afterReads (operandReadAddrs o s))).complete base crossExtra (pageCrossed o s) 0) := by
  simp [runOperand, resolve_eq]

/-- A one-byte instruction: its routine runs on the state itself. -/
theorem runImplied_eq (cycles : Nat) (routine : State → State) (s : State) :
    runImplied cycles routine s = .next ((routine s).complete cycles 0 false 0) := rfl

/-- A branch: PC only, and the cycle cost. -/
theorem runBranch_eq (cond : Bool) (offset : Byte) (s : State) :
    runBranch cond offset s =
      .next (if cond then
          { s with pc := s.pc + sext16 offset }.complete 2 0 false
            (if hiByte (s.pc + sext16 offset) == hiByte s.pc then 1 else 2)
        else s.complete 2 0 false 0) := by
  cases cond <;> rfl

end Sys2Proof.Machine
end

