-- ==== Sys2Proof/Laws/PerInstr.lean ====
section
/-! SUPPORT. The decoder and the encoder: the matrix has a cell for each byte, and, per instruction, the encoding of a
well-formed instruction is as long as its addressing mode says (R50). -/

namespace Sys2Proof

theorem opcodeMatrix_length : opcodeMatrix.length = 256 := by
  simp only [opcodeMatrix, List.length_append]
  rfl

/-- An opcode's length is 1, 2 or 3 (R50). -/
theorem opcodeLength_cases (op : Byte) : opcodeLength op = 1 ∨ opcodeLength op = 2 ∨ opcodeLength op = 3 := by
  unfold opcodeLength
  cases entryOf op with
  | one => exact .inl rfl
  | byte => exact .inr (.inl rfl)
  | word => exact .inr (.inr rfl)
  | operand m => cases m <;> simp [Entry.length, Mode.length]

theorem Operand.bytes_length (o : Operand) : o.bytes.length + 1 = o.mode.length := by cases o <;> rfl

/-- A row's encoding of a mode it has is as long as the mode says. -/
theorem encodeRow_length {row : MnemonicRow} {o : Operand} (h : (row.lookup o.mode).isSome = true) :
    (encodeRow row o).length = o.mode.length := by
  obtain ⟨opcode, hop⟩ := Option.isSome_iff_exists.1 h
  simp [encodeRow, hop, ← Operand.bytes_length]

namespace Laws.EncodedLength

/-- The encoding of a well-formed instruction has the bytes its mode has (R50). -/
def Statement (i : Instr) : Prop := i.wf = true → (encode i).length = i.operand.mode.length

theorem adc (o : Operand) : Statement (.adc o) := fun h => encodeRow_length (by cases o <;> first | rfl | cases h)
theorem sbc (o : Operand) : Statement (.sbc o) := fun h => encodeRow_length (by cases o <;> first | rfl | cases h)
theorem and (o : Operand) : Statement (.and o) := fun h => encodeRow_length (by cases o <;> first | rfl | cases h)
theorem eor (o : Operand) : Statement (.eor o) := fun h => encodeRow_length (by cases o <;> first | rfl | cases h)
theorem ora (o : Operand) : Statement (.ora o) := fun h => encodeRow_length (by cases o <;> first | rfl | cases h)
theorem asl (o : Operand) : Statement (.asl o) := fun h => encodeRow_length (by cases o <;> first | rfl | cases h)
theorem lsr (o : Operand) : Statement (.lsr o) := fun h => encodeRow_length (by cases o <;> first | rfl | cases h)
theorem rol (o : Operand) : Statement (.rol o) := fun h => encodeRow_length (by cases o <;> first | rfl | cases h)
theorem ror (o : Operand) : Statement (.ror o) := fun h => encodeRow_length (by cases o <;> first | rfl | cases h)
theorem bit (o : Operand) : Statement (.bit o) := fun h => encodeRow_length (by cases o <;> first | rfl | cases h)
theorem cmp (o : Operand) : Statement (.cmp o) := fun h => encodeRow_length (by cases o <;> first | rfl | cases h)
theorem cpx (o : Operand) : Statement (.cpx o) := fun h => encodeRow_length (by cases o <;> first | rfl | cases h)
theorem cpy (o : Operand) : Statement (.cpy o) := fun h => encodeRow_length (by cases o <;> first | rfl | cases h)
theorem bcc (offset : Byte) : Statement (.bcc offset) := fun _ => rfl
theorem bcs (offset : Byte) : Statement (.bcs offset) := fun _ => rfl
theorem beq (offset : Byte) : Statement (.beq offset) := fun _ => rfl
theorem bne (offset : Byte) : Statement (.bne offset) := fun _ => rfl
theorem bmi (offset : Byte) : Statement (.bmi offset) := fun _ => rfl
theorem bpl (offset : Byte) : Statement (.bpl offset) := fun _ => rfl
theorem bvc (offset : Byte) : Statement (.bvc offset) := fun _ => rfl
theorem bvs (offset : Byte) : Statement (.bvs offset) := fun _ => rfl
theorem jmp (target : Addr) : Statement (.jmp target) := fun _ => rfl
theorem jmpIndirect (pointer : Addr) : Statement (.jmpIndirect pointer) := fun _ => rfl
theorem jsr (target : Addr) : Statement (.jsr target) := fun _ => rfl
theorem rts : Statement (.rts) := fun _ => rfl
theorem brk : Statement (.brk) := fun _ => rfl
theorem rti : Statement (.rti) := fun _ => rfl
theorem pha : Statement (.pha) := fun _ => rfl
theorem pla : Statement (.pla) := fun _ => rfl
theorem php : Statement (.php) := fun _ => rfl
theorem plp : Statement (.plp) := fun _ => rfl
theorem tax : Statement (.tax) := fun _ => rfl
theorem tay : Statement (.tay) := fun _ => rfl
theorem tsx : Statement (.tsx) := fun _ => rfl
theorem txa : Statement (.txa) := fun _ => rfl
theorem tya : Statement (.tya) := fun _ => rfl
theorem txs : Statement (.txs) := fun _ => rfl
theorem lda (o : Operand) : Statement (.lda o) := fun h => encodeRow_length (by cases o <;> first | rfl | cases h)
theorem ldx (o : Operand) : Statement (.ldx o) := fun h => encodeRow_length (by cases o <;> first | rfl | cases h)
theorem ldy (o : Operand) : Statement (.ldy o) := fun h => encodeRow_length (by cases o <;> first | rfl | cases h)
theorem sta (o : Operand) : Statement (.sta o) := fun h => encodeRow_length (by cases o <;> first | rfl | cases h)
theorem stx (o : Operand) : Statement (.stx o) := fun h => encodeRow_length (by cases o <;> first | rfl | cases h)
theorem sty (o : Operand) : Statement (.sty o) := fun h => encodeRow_length (by cases o <;> first | rfl | cases h)
theorem inc (o : Operand) : Statement (.inc o) := fun h => encodeRow_length (by cases o <;> first | rfl | cases h)
theorem dec (o : Operand) : Statement (.dec o) := fun h => encodeRow_length (by cases o <;> first | rfl | cases h)
theorem inx : Statement (.inx) := fun _ => rfl
theorem iny : Statement (.iny) := fun _ => rfl
theorem dex : Statement (.dex) := fun _ => rfl
theorem dey : Statement (.dey) := fun _ => rfl
theorem clc : Statement (.clc) := fun _ => rfl
theorem cld : Statement (.cld) := fun _ => rfl
theorem cli : Statement (.cli) := fun _ => rfl
theorem clv : Statement (.clv) := fun _ => rfl
theorem sec : Statement (.sec) := fun _ => rfl
theorem sed : Statement (.sed) := fun _ => rfl
theorem sei : Statement (.sei) := fun _ => rfl
theorem nop : Statement (.nop) := fun _ => rfl
theorem slo (o : Operand) : Statement (.slo o) := fun h => encodeRow_length (by cases o <;> first | rfl | cases h)
theorem rla (o : Operand) : Statement (.rla o) := fun h => encodeRow_length (by cases o <;> first | rfl | cases h)
theorem sre (o : Operand) : Statement (.sre o) := fun h => encodeRow_length (by cases o <;> first | rfl | cases h)
theorem rra (o : Operand) : Statement (.rra o) := fun h => encodeRow_length (by cases o <;> first | rfl | cases h)
theorem sax (o : Operand) : Statement (.sax o) := fun h => encodeRow_length (by cases o <;> first | rfl | cases h)
theorem lax (o : Operand) : Statement (.lax o) := fun h => encodeRow_length (by cases o <;> first | rfl | cases h)
theorem laxImmediate (value : Byte) : Statement (.laxImmediate value) := fun _ => rfl
theorem dcp (o : Operand) : Statement (.dcp o) := fun h => encodeRow_length (by cases o <;> first | rfl | cases h)
theorem isc (o : Operand) : Statement (.isc o) := fun h => encodeRow_length (by cases o <;> first | rfl | cases h)
theorem anc (opcode : Byte) (value : Byte) : Statement (.anc opcode value) := fun _ => rfl
theorem alr (value : Byte) : Statement (.alr value) := fun _ => rfl
theorem arr (value : Byte) : Statement (.arr value) := fun _ => rfl
theorem xaa (value : Byte) : Statement (.xaa value) := fun _ => rfl
theorem axs (value : Byte) : Statement (.axs value) := fun _ => rfl
theorem sbcEB (value : Byte) : Statement (.sbcEB value) := fun _ => rfl
theorem las (base : Addr) : Statement (.las base) := fun _ => rfl
theorem nopOneByte (opcode : Byte) : Statement (.nopOneByte opcode) := fun _ => rfl
theorem nopTwoByte (opcode : Byte) (o : Operand) : Statement (.nopTwoByte opcode o) := fun _ => by simp [encode, Instr.operand, ← Operand.bytes_length]
theorem nopThreeByte (opcode : Byte) (o : Operand) : Statement (.nopThreeByte opcode o) := fun _ => by simp [encode, Instr.operand, ← Operand.bytes_length]
theorem kil (opcode : Byte) : Statement (.kil opcode) := fun _ => rfl
theorem invalid (opcode : Byte) : Statement (.invalid opcode) := fun _ => rfl

end Laws.EncodedLength

end Sys2Proof
end

