-- ==== Sys2Proof/Tests/Slice0.lean ====
section
/-! SUPPORT. The model's own tests: ill-formed terms refused, words decoded, one step from the vectors of
spec/95_test_vectors.md, and for each statement with hypotheses a state and operands that meet them. -/

namespace Sys2Proof.Tests

open Sys2Proof Sys2Proof.Machine Sys2Proof.Claims

/-! ## Helpers -/

/-- `s` with these bytes at PC and these cells of memory. -/
def place (bytes : List Byte) (cells : List (Addr × Byte)) (s : State) : State :=
  cells.foldl (fun t c => t.hostWrite c.1 c.2)
    ((bytes.zipIdx).foldl (fun t b => t.hostWrite (s.pc + BitVec.ofNat 16 b.2) b.1) s)

/-- What `f` sees after one step from `s` with these bytes at PC and these cells of memory. -/
def after {α : Type} (bytes : List Byte) (cells : List (Addr × Byte)) (s : State) (f : State → α) : Option α :=
  match step (place bytes cells s) with
  | .next t => some (f t)
  | _ => none

/-! ## Ill-formed terms, one for each check of `Instr.wf` -/

theorem test_wf_alu : [Instr.adc .accumulator, .sbc .implied, .and (.zeroPageY 0), .eor (.relative 0), .ora (.indirect 0),
    .cmp .accumulator, .lda (.zeroPageY 1)].any Instr.wf = false := by decide
theorem test_wf_shift : [Instr.asl (.immediate 0), .lsr (.absoluteY 0), .rol .implied, .ror (.indirectX 0)].any Instr.wf = false := by
  decide
theorem test_wf_bit : (Instr.bit (.immediate 1)).wf = false := by decide
theorem test_wf_indexCompare : [Instr.cpx (.zeroPageX 0), .cpy (.absoluteX 0)].any Instr.wf = false := by decide
theorem test_wf_ldx : (Instr.ldx (.zeroPageX 0)).wf = false := by decide
theorem test_wf_ldy : (Instr.ldy (.zeroPageY 0)).wf = false := by decide
theorem test_wf_sta : (Instr.sta (.immediate 0)).wf = false := by decide
theorem test_wf_stx : (Instr.stx (.absoluteY 0)).wf = false := by decide
theorem test_wf_sty : (Instr.sty (.absoluteX 0)).wf = false := by decide
theorem test_wf_incDec : [Instr.inc .accumulator, .dec (.absoluteY 0)].any Instr.wf = false := by decide
theorem test_wf_modifyCombinations : [Instr.slo .accumulator, .rla (.immediate 0), .sre .implied, .rra (.zeroPageY 0),
    .dcp (.relative 0), .isc (.indirect 0)].any Instr.wf = false := by decide
theorem test_wf_sax : (Instr.sax (.zeroPageX 0)).wf = false := by decide
theorem test_wf_lax : (Instr.lax (.immediate 0)).wf = false := by decide
theorem test_wf_anc : (Instr.anc 0x0C 0).wf = false := by decide
theorem test_wf_nopOneByte : (Instr.nopOneByte 0xEA).wf = false := by decide
theorem test_wf_nopTwoByte : [Instr.nopTwoByte 0x80 (.zeroPage 0), .nopTwoByte 0x04 (.immediate 0),
    .nopTwoByte 0x04 .implied].any Instr.wf = false := by decide
theorem test_wf_nopThreeByte : [Instr.nopThreeByte 0x0C (.absoluteX 0), .nopThreeByte 0x1C (.absolute 0)].any Instr.wf = false := by
  decide
theorem test_wf_kil : (Instr.kil 0x82).wf = false := by decide
theorem test_wf_invalid : (Instr.invalid 0xEA).wf = false := by decide

/-! ## Decoding: for every constructor a word written out from the matrix of R53 to R55 -/

/-- The instruction these bytes decode to, and the bytes left. -/
def decoded (bytes : List Byte) : Option (Instr × List Byte) := (decode bytes).toOption

theorem test_decode_arithmetic :
    decoded [0x79, 0xF0, 0x02] = some (.adc (.absoluteY 0x02F0), []) ∧
    decoded [0xF1, 0x20] = some (.sbc (.indirectY 0x20), []) ∧ decoded [0xEB, 0x05] = some (.sbcEB 0x05, []) ∧
    decoded [0x35, 0x10] = some (.and (.zeroPageX 0x10), []) ∧ decoded [0x41, 0x20] = some (.eor (.indirectX 0x20), []) ∧
    decoded [0x19, 0x00, 0x03] = some (.ora (.absoluteY 0x0300), []) ∧
    decoded [0x24, 0x10] = some (.bit (.zeroPage 0x10), []) ∧ decoded [0xC9, 0x10] = some (.cmp (.immediate 0x10), []) ∧
    decoded [0xE4, 0x10] = some (.cpx (.zeroPage 0x10), []) ∧
    decoded [0xCC, 0x00, 0x03] = some (.cpy (.absolute 0x0300), []) := by decide
theorem test_decode_shifts :
    decoded [0x0A] = some (.asl .accumulator, []) ∧ decoded [0x5E, 0xFF, 0x02] = some (.lsr (.absoluteX 0x02FF), []) ∧
    decoded [0x36, 0xFF] = some (.rol (.zeroPageX 0xFF), []) ∧
    decoded [0x6E, 0x00, 0x03] = some (.ror (.absolute 0x0300), []) := by decide
theorem test_decode_branches :
    decoded [0x90, 0x80] = some (.bcc 0x80, []) ∧ decoded [0xB0, 0x7F] = some (.bcs 0x7F, []) ∧
    decoded [0xF0, 0x02] = some (.beq 0x02, []) ∧ decoded [0xD0, 0x02] = some (.bne 0x02, []) ∧
    decoded [0x30, 0x00] = some (.bmi 0x00, []) ∧ decoded [0x10, 0xFE] = some (.bpl 0xFE, []) ∧
    decoded [0x50, 0x00] = some (.bvc 0x00, []) ∧ decoded [0x70, 0x01] = some (.bvs 0x01, []) := by decide
theorem test_decode_jumps :
    decoded [0x4C, 0x00, 0x80] = some (.jmp 0x8000, []) ∧ decoded [0x6C, 0xFF, 0x30] = some (.jmpIndirect 0x30FF, []) ∧
    decoded [0x20, 0x10, 0xC0] = some (.jsr 0xC010, []) ∧ decoded [0x60] = some (.rts, []) ∧
    decoded [0x00, 0xFF] = some (.brk, [0xFF]) ∧ decoded [0x40] = some (.rti, []) := by decide
theorem test_decode_stackAndTransfers :
    decoded [0x48] = some (.pha, []) ∧ decoded [0x68] = some (.pla, []) ∧ decoded [0x08] = some (.php, []) ∧
    decoded [0x28] = some (.plp, []) ∧ decoded [0xAA] = some (.tax, []) ∧ decoded [0xA8] = some (.tay, []) ∧
    decoded [0xBA] = some (.tsx, []) ∧ decoded [0x8A] = some (.txa, []) ∧ decoded [0x98] = some (.tya, []) ∧
    decoded [0x9A] = some (.txs, []) := by decide
theorem test_decode_loadsAndStores :
    decoded [0xBD, 0xF0, 0x12] = some (.lda (.absoluteX 0x12F0), []) ∧
    decoded [0xB6, 0xF0] = some (.ldx (.zeroPageY 0xF0), []) ∧
    decoded [0xBC, 0xF0, 0x12] = some (.ldy (.absoluteX 0x12F0), []) ∧
    decoded [0x91, 0x20] = some (.sta (.indirectY 0x20), []) ∧ decoded [0x96, 0xF0] = some (.stx (.zeroPageY 0xF0), []) ∧
    decoded [0x94, 0x10] = some (.sty (.zeroPageX 0x10), []) := by decide
theorem test_decode_increments :
    decoded [0xE6, 0x10] = some (.inc (.zeroPage 0x10), []) ∧
    decoded [0xDE, 0x00, 0x03] = some (.dec (.absoluteX 0x0300), []) ∧ decoded [0xE8] = some (.inx, []) ∧
    decoded [0xC8] = some (.iny, []) ∧ decoded [0xCA] = some (.dex, []) ∧ decoded [0x88] = some (.dey, []) := by decide
theorem test_decode_flagInstructions :
    decoded [0x18] = some (.clc, []) ∧ decoded [0xD8] = some (.cld, []) ∧ decoded [0x58] = some (.cli, []) ∧
    decoded [0xB8] = some (.clv, []) ∧ decoded [0x38] = some (.sec, []) ∧ decoded [0xF8] = some (.sed, []) ∧
    decoded [0x78] = some (.sei, []) ∧ decoded [0xEA] = some (.nop, []) := by decide
theorem test_decode_combinations :
    decoded [0x1B, 0xF0, 0x12] = some (.slo (.absoluteY 0x12F0), []) ∧
    decoded [0x23, 0x20] = some (.rla (.indirectX 0x20), []) ∧
    decoded [0x5F, 0x00, 0x03] = some (.sre (.absoluteX 0x0300), []) ∧
    decoded [0x67, 0x10] = some (.rra (.zeroPage 0x10), []) ∧ decoded [0xC7, 0x10] = some (.dcp (.zeroPage 0x10), []) ∧
    decoded [0xFF, 0x00, 0x03] = some (.isc (.absoluteX 0x0300), []) ∧
    decoded [0x97, 0xF0] = some (.sax (.zeroPageY 0xF0), []) ∧
    decoded [0xBF, 0xF0, 0x12] = some (.lax (.absoluteY 0x12F0), []) ∧
    decoded [0xBB, 0xFF, 0x12] = some (.las 0x12FF, []) := by decide
theorem test_decode_immediateCombinations :
    decoded [0xAB, 0x0F] = some (.laxImmediate 0x0F, []) ∧ decoded [0x2B, 0x7F] = some (.anc 0x2B 0x7F, []) ∧
    decoded [0x4B, 0x03] = some (.alr 0x03, []) ∧ decoded [0x6B, 0xFF] = some (.arr 0xFF, []) ∧
    decoded [0x8B, 0x0F] = some (.xaa 0x0F, []) ∧ decoded [0xCB, 0x02] = some (.axs 0x02, []) := by decide
theorem test_decode_undocumentedNops :
    decoded [0x7A] = some (.nopOneByte 0x7A, []) ∧ decoded [0xF4, 0x10] = some (.nopTwoByte 0xF4 (.zeroPageX 0x10), []) ∧
    decoded [0x89, 0x10] = some (.nopTwoByte 0x89 (.immediate 0x10), []) ∧
    decoded [0x0C, 0x00, 0x20] = some (.nopThreeByte 0x0C (.absolute 0x2000), []) ∧
    decoded [0xFC, 0xF0, 0x12] = some (.nopThreeByte 0xFC (.absoluteX 0x12F0), []) := by decide
theorem test_decode_haltAndInvalid :
    decoded [0xB2, 0x00] = some (.kil 0xB2, [0x00]) ∧ decoded [0x9F] = some (.invalid 0x9F, []) := by decide
theorem test_decode_missing_operand :
    decode [] = .error .noOpcode ∧ decode [0xA9] = .error (.operandMissing 0xA9) ∧
    decode [0xAD, 0x00] = .error (.operandMissing 0xAD) := ⟨rfl, rfl, rfl⟩
theorem test_decodeTableWord_short_row : decodeTableWord 8 0x1234A9 = some (.lda (.immediate 0x00)) ∧
    decodeTableWord 24 0x1234AD = some (.lda (.absolute 0x1234)) := by decide

/-! ## One step, from the vectors of spec/95_test_vectors.md -/

theorem test_adc_positive_overflow :
    after [0x69, 0x01] [] { State.reset with a := 0x7F } (fun t => (t.a, t.p.v, t.p.c)) = some (0x80, true, false) := by decide
theorem test_sbc_borrow_and_overflow :
    after [0xE9, 0xB0] [] { State.reset with a := 0x50, p := Flags.unpack 0x25 } (fun t => (t.a, t.p.v, t.p.c)) =
      some (0xA0, true, false) := by decide
theorem test_sbcEB_equal_operands :
    after [0xEB, 0x05] [] { State.reset with a := 0x05, p := Flags.unpack 0x25 } (fun t => (t.a, t.p.z, t.p.c)) =
      some (0x00, true, true) := by decide
theorem test_bit_flags_from_operand :
    after [0x24, 0x10] [(0x0010, 0xF0)] { State.reset with a := 0x0F } (fun t => (t.p.n, t.p.v, t.p.z)) =
      some (true, true, true) := by decide
theorem test_cmp_sign_of_difference :
    after [0xC9, 0x80] [] { State.reset with a := 0x01 } (fun t => (t.p.n, t.p.z, t.p.c)) = some (true, false, false) := by
  decide
theorem test_ror_accumulator :
    after [0x6A] [] { State.reset with p := Flags.unpack 0x25 } (fun t => (t.a, t.p.n, t.p.c)) =
      some (0x80, true, false) := by decide
/-- The two instructions over the open constants run, whatever the constants are (R207, R213). -/
theorem test_laxImmediate_runs :
    after [0xAB, 0x0F] [] State.reset (fun t => (t.pc, t.out.cycles)) = some (0xC002, 2) := by rfl
theorem test_xaa_runs :
    after [0x8B, 0x0F] [] State.reset (fun t => (t.pc, t.out.cycles)) = some (0xC002, 2) := by rfl
theorem test_step_after_halt :
    after [0x02] [] { State.reset with run := .halted } (fun t => (t.pc, t.run, t.out.accesses.length)) =
      some (0xC000, .halted, 0) := by decide
theorem test_reset_runs_again : ({ State.reset with run := .faulted, a := 7 } : State).applyReset = State.reset := by decide

theorem test_lda_indirectY_pointer_wraps :
    after [0xB1, 0xFF] [(0x0000, 0x02), (0x00FF, 0xF0), (0x0300, 0x77)] { State.reset with y := 0x10 }
      (fun t => (t.a, t.p.toByte, t.out.cycles, (t.out.accesses.getLast?))) =
      some (0x77, 0x24, 5, some (.read 0x0300 0x77)) := by decide
theorem test_lda_absoluteX_wraps_and_crosses :
    after [0xBD, 0xFF, 0xFF] [(0x0000, 0x03)] { State.reset with x := 0x01 }
      (fun t => (t.a, t.p.toByte, t.out.cycles, (t.out.accesses.getLast?))) =
      some (0x03, 0x24, 5, some (.read 0x0000 0x03)) := by decide
theorem test_ldx_zeroPageY_wraps :
    after [0xB6, 0xF0] [(0x0010, 0x45)] { State.reset with y := 0x20 }
      (fun t => (t.x, t.p.toByte, t.out.cycles, (t.out.accesses.getLast?))) =
      some (0x45, 0x24, 4, some (.read 0x0010 0x45)) := by decide
theorem test_ldy_absoluteX_crosses :
    after [0xBC, 0xF0, 0x12] [(0x1300, 0xFF)] { State.reset with x := 0x10 }
      (fun t => (t.y, t.p.toByte, t.out.cycles, (t.out.accesses.getLast?))) =
      some (0xFF, 0xA4, 5, some (.read 0x1300 0xFF)) := by decide
theorem test_sta_indirectY :
    after [0x91, 0x20] [(0x0020, 0xF0), (0x0021, 0x02), (0x0300, 0x99)] { State.reset with a := 0xCD, y := 0x10 }
      (fun t => (t.p.toByte, t.mem.read 0x0300, t.out.cycles)) =
      some (0x24, 0xCD, 6) := by decide
theorem test_sta_leaves_flags :
    after [0x85, 0x10] [(0x0010, 0x11)] State.reset
      (fun t => (t.p.toByte, t.mem.read 0x0010, t.out.cycles)) =
      some (0x24, 0x00, 3) := by decide
theorem test_stx_zeroPageY :
    after [0x96, 0xF0] [] { State.reset with x := 0x66, y := 0x20 }
      (fun t => (t.p.toByte, t.mem.read 0x0010, t.out.cycles)) =
      some (0x24, 0x66, 4) := by decide
theorem test_sty_zeroPageX :
    after [0x94, 0x10] [] { State.reset with x := 0x01, y := 0x77 }
      (fun t => (t.p.toByte, t.mem.read 0x0011, t.out.cycles)) =
      some (0x24, 0x77, 4) := by decide
theorem test_adc_absoluteY_crosses :
    after [0x79, 0xF0, 0x02] [(0x0310, 0x40)] { State.reset with a := 0x40, y := 0x20 }
      (fun t => (t.a, t.p.toByte, t.out.cycles, (t.out.accesses.getLast?))) =
      some (0x80, 0xE4, 5, some (.read 0x0310 0x40)) := by decide
theorem test_sbc_indirectY_no_extra_cycle :
    after [0xF1, 0x20] [(0x0020, 0x01), (0x0021, 0x02), (0x0300, 0x01)] { State.reset with y := 0xFF, p := Flags.unpack 0x25 }
      (fun t => (t.a, t.p.toByte, t.out.cycles, (t.out.accesses.getLast?))) =
      some (0xFF, 0xA4, 5, some (.read 0x0300 0x01)) := by decide
theorem test_and_zeroPageX :
    after [0x35, 0x10] [(0x0015, 0x0F)] { State.reset with a := 0xFF, x := 0x05 }
      (fun t => (t.a, t.p.toByte, t.out.cycles, (t.out.accesses.getLast?))) =
      some (0x0F, 0x24, 4, some (.read 0x0015 0x0F)) := by decide
theorem test_eor_indirectX :
    after [0x41, 0x20] [(0x0021, 0x03), (0x0300, 0xFF)] { State.reset with a := 0xFF }
      (fun t => (t.a, t.p.toByte, t.out.cycles, (t.out.accesses.getLast?))) =
      some (0x00, 0x26, 6, some (.read 0x0300 0xFF)) := by decide
theorem test_ora_absoluteY :
    after [0x19, 0x00, 0x03] [(0x0301, 0x80)] { State.reset with a := 0x01, y := 0x01 }
      (fun t => (t.a, t.p.toByte, t.out.cycles, (t.out.accesses.getLast?))) =
      some (0x81, 0xA4, 4, some (.read 0x0301 0x80)) := by decide
theorem test_asl_address_zero_is_memory :
    after [0x06, 0x00] [(0x0000, 0xC0)] { State.reset with a := 0x55 }
      (fun t => (t.p.toByte, t.mem.read 0x0000, t.out.cycles)) =
      some (0xA5, 0x80, 5) := by decide
theorem test_lsr_absoluteX_crosses_fixed_cycles :
    after [0x5E, 0xFF, 0x02] [(0x0300, 0x01)] { State.reset with a := 0x55, x := 0x01 }
      (fun t => (t.p.toByte, t.mem.read 0x0300, t.out.cycles)) =
      some (0x27, 0x00, 7) := by decide
theorem test_rol_zeroPageX_wraps :
    after [0x36, 0xFF] [(0x0001, 0x7F)] { State.reset with a := 0x55, x := 0x02, p := Flags.unpack 0x25 }
      (fun t => (t.p.toByte, t.mem.read 0x0001, t.out.cycles)) =
      some (0xA4, 0xFF, 6) := by decide
theorem test_ror_absolute :
    after [0x6E, 0x00, 0x03] [(0x0300, 0x02)] { State.reset with a := 0x55, p := Flags.unpack 0x25 }
      (fun t => (t.p.toByte, t.mem.read 0x0300, t.out.cycles)) =
      some (0xA4, 0x81, 6) := by decide
theorem test_cmp_absoluteX_crosses :
    after [0xDD, 0xF0, 0x12] [(0x1300, 0x41)] { State.reset with a := 0x40, x := 0x10 }
      (fun t => (t.p.toByte, t.out.cycles, (t.out.accesses.getLast?))) =
      some (0xA4, 5, some (.read 0x1300 0x41)) := by decide
theorem test_cpx_zeroPage :
    after [0xE4, 0x10] [(0x0010, 0x40)] { State.reset with x := 0x40 }
      (fun t => (t.p.toByte, t.out.cycles, (t.out.accesses.getLast?))) =
      some (0x27, 3, some (.read 0x0010 0x40)) := by decide
theorem test_cpy_absolute :
    after [0xCC, 0x00, 0x03] [(0x0300, 0x40)] { State.reset with y := 0x41 }
      (fun t => (t.p.toByte, t.out.cycles, (t.out.accesses.getLast?))) =
      some (0x25, 4, some (.read 0x0300 0x40)) := by decide
theorem test_bcc_offset_minus_128 :
    after [0x90, 0x80] [] State.reset
      (fun t => (t.p.toByte, t.out.cycles)) =
      some (0x24, 4) := by decide
theorem test_bcc_wraps_below_zero :
    after [0x90, 0xFD] [] { State.reset with pc := 0x0000 }
      (fun t => (t.p.toByte, t.out.cycles)) =
      some (0x24, 4) := by decide
theorem test_bcs_offset_plus_127 :
    after [0xB0, 0x7F] [] { State.reset with p := Flags.unpack 0x25 }
      (fun t => (t.p.toByte, t.out.cycles)) =
      some (0x25, 3) := by decide
theorem test_beq_page_changes :
    after [0xF0, 0x02] [] { State.reset with pc := 0xC0FD, p := Flags.unpack 0x26 }
      (fun t => (t.p.toByte, t.out.cycles)) =
      some (0x26, 4) := by decide
theorem test_bne_not_taken :
    after [0xD0, 0x02] [] { State.reset with p := Flags.unpack 0x26 }
      (fun t => (t.p.toByte, t.out.cycles)) =
      some (0x26, 2) := by decide
theorem test_bmi_offset_zero_taken :
    after [0x30, 0x00] [] { State.reset with p := Flags.unpack 0xA4 }
      (fun t => (t.p.toByte, t.out.cycles)) =
      some (0xA4, 3) := by decide
theorem test_bpl_to_itself :
    after [0x10, 0xFE] [] State.reset
      (fun t => (t.p.toByte, t.out.cycles)) =
      some (0x24, 3) := by decide
theorem test_bvc_page_from_next_instruction :
    after [0x50, 0x00] [] { State.reset with pc := 0xC0FE }
      (fun t => (t.p.toByte, t.out.cycles)) =
      some (0x24, 3) := by decide
theorem test_bvs_wraps_at_top :
    after [0x70, 0x01] [] { State.reset with pc := 0xFFFD, p := Flags.unpack 0x64 }
      (fun t => (t.p.toByte, t.out.cycles)) =
      some (0x64, 4) := by decide
theorem test_jmp_to_itself_reads_target :
    after [0x4C, 0x00, 0xC0] [] State.reset
      (fun t => (t.p.toByte, t.out.cycles, (t.out.accesses.getLast?))) =
      some (0x24, 3, some (.read 0xC000 0x4C)) := by decide
theorem test_jmpIndirect_page_wrap :
    after [0x6C, 0xFF, 0x30] [(0x3000, 0x80), (0x30FF, 0x40), (0x3100, 0x99)] State.reset
      (fun t => (t.p.toByte, t.out.cycles, (t.out.accesses.getLast?))) =
      some (0x24, 5, some (.read 0x3000 0x80)) := by decide
theorem test_jsr_stack_wraps :
    after [0x20, 0x10, 0xC0] [] { State.reset with sp := 0x00 }
      (fun t => (t.sp, t.p.toByte, t.mem.read 0x0100, t.mem.read 0x01FF, t.out.cycles)) =
      some (0xFE, 0x24, 0xC0, 0x02, 6) := by decide
theorem test_rts_wraps :
    after [0x60] [(0x0100, 0xFF), (0x0101, 0xFF)] { State.reset with sp := 0xFF, pc := 0xC010 }
      (fun t => (t.sp, t.p.toByte, t.out.cycles, (t.out.accesses.getLast?))) =
      some (0x01, 0x24, 6, some (.read 0x0101 0xFF)) := by decide
theorem test_brk_keeps_I_and_wraps :
    after [0x00] [(0xFFFE, 0x34), (0xFFFF, 0x12)] { State.reset with sp := 0x01, pc := 0x80FF, p := Flags.unpack 0xA1 }
      (fun t => (t.sp, t.p.toByte, t.mem.read 0x0101, t.mem.read 0x0100, t.mem.read 0x01FF, t.out.cycles)) =
      some (0xFE, 0xA1, 0x81, 0x00, 0xB1, 7) := by decide
theorem test_rti_sets_U :
    after [0x40] [(0x0100, 0xCD), (0x0101, 0xAB)] { State.reset with sp := 0xFE, pc := 0xC100 }
      (fun t => (t.sp, t.p.toByte, t.out.cycles, (t.out.accesses.getLast?))) =
      some (0x01, 0x20, 6, some (.read 0x0101 0xAB)) := by decide
theorem test_pha_wraps :
    after [0x48] [] { State.reset with a := 0x7E, sp := 0x00 }
      (fun t => (t.sp, t.p.toByte, t.mem.read 0x0100, t.out.cycles)) =
      some (0xFF, 0x24, 0x7E, 3) := by decide
theorem test_pla_wraps :
    after [0x68] [(0x0100, 0x7E)] { State.reset with a := 0x55, sp := 0xFF }
      (fun t => (t.a, t.sp, t.p.toByte, t.out.cycles, (t.out.accesses.getLast?))) =
      some (0x7E, 0x00, 0x24, 4, some (.read 0x0100 0x7E)) := by decide
theorem test_php_pushes_B :
    after [0x08] [] { State.reset with p := Flags.unpack 0xA5 }
      (fun t => (t.sp, t.p.toByte, t.mem.read 0x01FD, t.out.cycles)) =
      some (0xFC, 0xA5, 0xB5, 3) := by decide
theorem test_plp_clears_B :
    after [0x28] [(0x01FD, 0xFF)] { State.reset with sp := 0xFC }
      (fun t => (t.sp, t.p.toByte, t.out.cycles, (t.out.accesses.getLast?))) =
      some (0xFD, 0xEF, 4, some (.read 0x01FD 0xFF)) := by decide
theorem test_tax :
    after [0xAA] [] { State.reset with a := 0x80 }
      (fun t => (t.x, t.p.toByte, t.out.cycles)) =
      some (0x80, 0xA4, 2) := by decide
theorem test_tay :
    after [0xA8] [] { State.reset with y := 0x05 }
      (fun t => (t.y, t.p.toByte, t.out.cycles)) =
      some (0x00, 0x26, 2) := by decide
theorem test_tsx :
    after [0xBA] [] State.reset
      (fun t => (t.x, t.p.toByte, t.out.cycles)) =
      some (0xFD, 0xA4, 2) := by decide
theorem test_txa :
    after [0x8A] [] { State.reset with a := 0xFF, x := 0x7F }
      (fun t => (t.a, t.p.toByte, t.out.cycles)) =
      some (0x7F, 0x24, 2) := by decide
theorem test_tya :
    after [0x98] [] { State.reset with a := 0xFF }
      (fun t => (t.a, t.p.toByte, t.out.cycles)) =
      some (0x00, 0x26, 2) := by decide
theorem test_txs_writes_no_flag :
    after [0x9A] [] { State.reset with p := Flags.unpack 0xA4 }
      (fun t => (t.sp, t.p.toByte, t.out.cycles)) =
      some (0x00, 0xA4, 2) := by decide
theorem test_inc_wraps :
    after [0xE6, 0x10] [(0x0010, 0xFF)] State.reset
      (fun t => (t.p.toByte, t.mem.read 0x0010, t.out.cycles)) =
      some (0x26, 0x00, 5) := by decide
theorem test_dec_wraps :
    after [0xDE, 0x00, 0x03] [] { State.reset with x := 0x05 }
      (fun t => (t.p.toByte, t.mem.read 0x0305, t.out.cycles)) =
      some (0xA4, 0xFF, 7) := by decide
theorem test_inx_wraps :
    after [0xE8] [] { State.reset with x := 0xFF }
      (fun t => (t.x, t.p.toByte, t.out.cycles)) =
      some (0x00, 0x26, 2) := by decide
theorem test_iny :
    after [0xC8] [] { State.reset with y := 0x7F }
      (fun t => (t.y, t.p.toByte, t.out.cycles)) =
      some (0x80, 0xA4, 2) := by decide
theorem test_dex_wraps :
    after [0xCA] [] State.reset
      (fun t => (t.x, t.p.toByte, t.out.cycles)) =
      some (0xFF, 0xA4, 2) := by decide
theorem test_dey :
    after [0x88] [] { State.reset with y := 0x01 }
      (fun t => (t.y, t.p.toByte, t.out.cycles)) =
      some (0x00, 0x26, 2) := by decide
theorem test_clc :
    after [0x18] [] { State.reset with p := Flags.unpack 0x25 }
      (fun t => (t.p.toByte, t.out.cycles)) =
      some (0x24, 2) := by decide
theorem test_cld :
    after [0xD8] [] { State.reset with p := Flags.unpack 0x2C }
      (fun t => (t.p.toByte, t.out.cycles)) =
      some (0x24, 2) := by decide
theorem test_cli :
    after [0x58] [] State.reset
      (fun t => (t.p.toByte, t.out.cycles)) =
      some (0x20, 2) := by decide
theorem test_clv :
    after [0xB8] [] { State.reset with p := Flags.unpack 0x64 }
      (fun t => (t.p.toByte, t.out.cycles)) =
      some (0x24, 2) := by decide
theorem test_sec :
    after [0x38] [] State.reset
      (fun t => (t.p.toByte, t.out.cycles)) =
      some (0x25, 2) := by decide
theorem test_sed :
    after [0xF8] [] State.reset
      (fun t => (t.p.toByte, t.out.cycles)) =
      some (0x2C, 2) := by decide
theorem test_sei :
    after [0x78] [] { State.reset with p := Flags.unpack 0x20 }
      (fun t => (t.p.toByte, t.out.cycles)) =
      some (0x24, 2) := by decide
theorem test_nop :
    after [0xEA] [] { State.reset with a := 0x01, p := Flags.unpack 0x25 }
      (fun t => (t.p.toByte, t.out.cycles)) =
      some (0x25, 2) := by decide
theorem test_slo :
    after [0x07, 0x10] [(0x0010, 0x81)] { State.reset with a := 0x01 }
      (fun t => (t.a, t.p.toByte, t.mem.read 0x0010, t.out.cycles)) =
      some (0x03, 0x25, 0x02, 5) := by decide
theorem test_rla :
    after [0x23, 0x20] [(0x0025, 0x03), (0x0300, 0x80)] { State.reset with a := 0x01, x := 0x04 }
      (fun t => (t.a, t.p.toByte, t.mem.read 0x0300, t.out.cycles)) =
      some (0x00, 0x27, 0x00, 8) := by decide
theorem test_sre :
    after [0x5F, 0x00, 0x03] [(0x0301, 0x80)] { State.reset with a := 0xFF, x := 0x01 }
      (fun t => (t.a, t.p.toByte, t.mem.read 0x0301, t.out.cycles)) =
      some (0xBF, 0xA4, 0x40, 7) := by decide
theorem test_rra_rotate_carry_enters_add :
    after [0x67, 0x10] [(0x0010, 0x03)] { State.reset with a := 0x10 }
      (fun t => (t.a, t.p.toByte, t.mem.read 0x0010, t.out.cycles)) =
      some (0x12, 0x24, 0x01, 5) := by decide
theorem test_dcp_wraps :
    after [0xC7, 0x10] [] { State.reset with a := 0x10 }
      (fun t => (t.p.toByte, t.mem.read 0x0010, t.out.cycles)) =
      some (0x24, 0xFF, 5) := by decide
theorem test_isc_byte_FF_uses_X :
    after [0xFF, 0x00, 0x03] [(0x0300, 0x77), (0x0310, 0xFF)] { State.reset with x := 0x10 }
      (fun t => (t.a, t.p.toByte, t.mem.read 0x0310, t.out.cycles)) =
      some (0xFF, 0xA4, 0x00, 7) := by decide
theorem test_isc_byte_FB_uses_Y :
    after [0xFB, 0xF0, 0x02] [] { State.reset with a := 0x80, y := 0x10, p := Flags.unpack 0x25 }
      (fun t => (t.a, t.p.toByte, t.mem.read 0x0300, t.out.cycles)) =
      some (0x7F, 0x65, 0x01, 7) := by decide
theorem test_sax_zeroPageY :
    after [0x97, 0xF0] [] { State.reset with a := 0xFF, x := 0x0F, y := 0x20 }
      (fun t => (t.p.toByte, t.mem.read 0x0010, t.out.cycles)) =
      some (0x24, 0x0F, 4) := by decide
theorem test_lax_absoluteY_crosses :
    after [0xBF, 0xF0, 0x12] [(0x1300, 0x7F)] { State.reset with y := 0x10 }
      (fun t => (t.a, t.x, t.p.toByte, t.out.cycles, (t.out.accesses.getLast?))) =
      some (0x7F, 0x7F, 0x24, 5, some (.read 0x1300 0x7F)) := by decide
theorem test_las :
    after [0xBB, 0xFF, 0x12] [(0x1300, 0x0F)] { State.reset with y := 0x01, sp := 0xF0 }
      (fun t => (t.sp, t.p.toByte, t.out.cycles, (t.out.accesses.getLast?))) =
      some (0x00, 0x26, 5, some (.read 0x1300 0x0F)) := by decide
theorem test_anc_second_byte :
    after [0x2B, 0x7F] [] { State.reset with a := 0x80, p := Flags.unpack 0x25 }
      (fun t => (t.a, t.p.toByte, t.out.cycles)) =
      some (0x00, 0x26, 2) := by decide
theorem test_alr :
    after [0x4B, 0x03] [] { State.reset with a := 0xFF }
      (fun t => (t.a, t.p.toByte, t.out.cycles)) =
      some (0x01, 0x25, 2) := by decide
theorem test_arr_decimal_ignored :
    after [0x6B, 0x7F] [] { State.reset with a := 0xFF, p := Flags.unpack 0x2C }
      (fun t => (t.a, t.p.toByte, t.out.cycles)) =
      some (0x3F, 0x6C, 2) := by decide
theorem test_arr_flags :
    after [0x6B, 0xFF] [] { State.reset with a := 0x80 }
      (fun t => (t.a, t.p.toByte, t.out.cycles)) =
      some (0x40, 0x65, 2) := by decide
theorem test_axs_borrow :
    after [0xCB, 0x08] [] { State.reset with a := 0x0F, x := 0x07, p := Flags.unpack 0x65 }
      (fun t => (t.x, t.p.toByte, t.out.cycles)) =
      some (0xFF, 0xE4, 2) := by decide
theorem test_nopOneByte :
    after [0x1A] [] { State.reset with a := 0x03, p := Flags.unpack 0x25 }
      (fun t => (t.p.toByte, t.out.cycles)) =
      some (0x25, 2) := by decide
theorem test_nopTwoByte_reads :
    after [0x04, 0x10] [(0x0010, 0x99)] State.reset
      (fun t => (t.p.toByte, t.out.cycles, (t.out.accesses.getLast?))) =
      some (0x24, 3, some (.read 0x0010 0x99)) := by decide
theorem test_nopThreeByte_crosses :
    after [0x1C, 0xF0, 0x12] [] { State.reset with x := 0x20 }
      (fun t => (t.p.toByte, t.out.cycles, (t.out.accesses.getLast?))) =
      some (0x24, 5, some (.read 0x1310 0x00)) := by decide
theorem test_kil :
    after [0xF2, 0x55] [] { State.reset with a := 0x09 }
      (fun t => (t.p.toByte, t.out.cycles, t.run)) =
      some (0x24, 0, .halted) := by decide
theorem test_invalid_fetches_no_operand :
    after [0x9C, 0x00, 0x02] [] { State.reset with a := 0xFF, x := 0xFF, y := 0xFF }
      (fun t => (t.p.toByte, t.out.cycles, t.run)) =
      some (0x24, 0, .faulted) := by decide

/-! ## The bus: the reference map of R41 and given answers, where the flat bus of the vectors shows nothing -/

/-- `a mod 0x0800` is the byte behind a RAM address (R41). -/
theorem test_bus_work_ram_is_mirrored :
    after [0x8D, 0x10, 0x18] [] { State.reset with a := 0xCD, bus := Bus.reference }
      (fun t => [0x0010, 0x0810, 0x1010, 0x1810, 0x0011].map (t.answer 0)) = some [0xCD, 0xCD, 0xCD, 0xCD, 0x00] := by decide
/-- The write is presented and recorded; the instance's PRG-ROM keeps its byte (log entry 2). -/
theorem test_bus_rom_ignores_write :
    after [0x8D, 0xFF, 0xFF] [(0xFFFF, 0x12)] { State.reset with a := 0xCD, bus := Bus.reference }
      (fun t => (t.answer 0 0xFFFF, t.out.accesses.getLast?)) = some (0x12, some (.write 0xFFFF 0xCD)) := by decide
/-- The fourth read of the step is answered by the device (R31). -/
theorem test_bus_device_answers_load :
    after [0xAD, 0x02, 0x20] [] { State.reset with bus := { Bus.reference with answers := [(3, 0x80)] } }
      (fun t => (t.a, t.p.toByte, t.bus.reads)) = some (0x80, 0xA4, 4) := by decide
/-- Two reads of one address need not agree (R31): DEC $2007 writes what it computed, and the next read is another. -/
theorem test_bus_device_reads_differ :
    after [0xCE, 0x07, 0x20] [] { State.reset with bus := { Bus.reference with answers := [(3, 0x01), (4, 0x55)] } }
      (fun t => (t.out.accesses.getLast?, t.answer 0 0x2007)) = some (some (.write 0x2007 0x00), 0x55) := by decide
/-- Instruction bytes from a device: LDA #$7F. -/
theorem test_bus_scripted_fetch :
    (match step (State.reset.hostBus (Bus.scripted [0xA9, 0x7F])) with
     | .next t => some (t.a, t.pc, t.out.accesses)
     | _ => none) = some (0x7F, 0xC002, [.read 0xC000 0xA9, .read 0xC001 0x7F]) := by decide

/-! ## Witnesses: for each statement with hypotheses, a state and operands that meet them all -/

/-- LDA $10 at 0xC000, with 0x33 at 0x0010. -/
def ldaState : State := place [0xA5, 0x10] [(0x0010, 0x33)] State.reset

/-- STA $12F0,X crossing a page, at the top of memory so that the instruction wraps past 0xFFFF. -/
def staState : State := place [0x9D, 0xF0, 0x12] [] { State.reset with a := 0xAB, x := 0x10, pc := 0xFFFE }

theorem witness_StepRunsDecodedInstruction :
    staState.run = .running ∧ decode (bytesAtPc staState) = .ok (.sta (.absoluteX 0x12F0), []) := ⟨rfl, rfl⟩
theorem witness_DecodeOfEncodeIsIdentity :
    (Instr.isc (.absoluteX 0xFFFF)).wf = true ∧ (Instr.anc 0x2B 0x00).wf = true ∧ (Instr.kil 0xF2).wf = true ∧
    (Instr.nopTwoByte 0xF4 (.zeroPageX 0xFF)).wf = true := by decide
theorem witness_StepKeepsBreakClearAndUnusedSet :
    ∃ t, ldaState.p.b = false ∧ ldaState.p.u = true ∧ step ldaState = .next t := ⟨_, rfl, rfl, rfl⟩
theorem witness_StepKeepsInvariant : ∃ t, ldaState.Inv ∧ step ldaState = .next t := ⟨_, ⟨by decide, rfl, rfl⟩, rfl⟩
/-- A flat bus, and one that is a device answering the same three bytes. -/
theorem witness_StepDependsOnlyOnBytesItReads :
    ∃ s' t t', { s' with bus := ldaState.bus, mem := ldaState.mem } = ldaState ∧ s'.bus ≠ ldaState.bus ∧
      s'.mem ≠ ldaState.mem ∧ step ldaState = .next t ∧ step s' = .next t' ∧
      t.out.accesses.filterMap answered = t'.out.accesses.filterMap answered :=
  ⟨{ ldaState with bus := Bus.scripted [0xA5, 0x10, 0x33], mem := { cells := [] } }, _, _, rfl, by decide, by decide, rfl, rfl,
    rfl⟩
/-- Mirrored RAM, read-only memory beside a device, a device with an answer given, the last byte of a script, a flat bus. -/
theorem witness_BusAnswersAsItsParameterSays :
    (Bus.reference.port 0x1FFF = .ram 0x07FF ∧ ldaState.mem.wf = true) ∧
    (Bus.reference.port 0xC000 = .rom 0xC000 ∧ Bus.reference.port 0xBFFF = .device) ∧
    (let b := { Bus.reference with answers := [(3, 0x80)] }
     b.port 0x2000 = .device ∧ b.answers.lookup (b.reads + 3) = some 0x80) ∧
    1 < ([0xA9, 0x7F] : List Byte).length ∧ ldaState.bus.regions = [] := by decide
theorem witness_StepKeepsTheBusParameter : ∃ t, step ldaState = .next t := ⟨_, rfl⟩
theorem witness_NonRunningStepChangesNothing :
    ({ State.reset with run := .halted } : State).run = .halted ∧
    ({ State.reset with run := .faulted } : State).run = .faulted := ⟨rfl, rfl⟩
theorem witness_OnlyResetLeavesHaltedOrFaulted :
    ({ State.reset with run := .halted } : State).run ≠ .running ∧
    ({ State.reset with run := .faulted } : State).run ≠ .running := by decide
theorem witness_RunStateChangesOnlyByKilAndInvalid :
    (∃ t, (place [0xF2] [] State.reset).run = .running ∧ step (place [0xF2] [] State.reset) = .next t ∧ t.run = .halted) ∧
    (∃ t, (place [0x93] [] State.reset).run = .running ∧ step (place [0x93] [] State.reset) = .next t ∧ t.run = .faulted) ∧
    (∃ t, ldaState.run = .running ∧ step ldaState = .next t ∧ t.run = .running) :=
  ⟨⟨_, rfl, rfl, rfl⟩, ⟨_, rfl, rfl, rfl⟩, ⟨_, rfl, rfl, rfl⟩⟩
theorem witness_TraceRecordHoldsStateBeforeInstruction : ∃ t, staState.run = .running ∧ step staState = .next t :=
  ⟨_, rfl, rfl⟩
/-- With a crossing (one more cycle), and a branch taken to another page (two more). -/
theorem witness_CycleCostIsTableSum :
    (∃ t, (Instr.lda (.absoluteX 0x12F0)).wf = true ∧ (encode (.lda (.absoluteX 0x12F0))).head? = some 0xBD ∧
      exec (.lda (.absoluteX 0x12F0)) staState = .next t ∧ pageCrossed (.absoluteX 0x12F0) staState = true) ∧
    (∃ t, (Instr.bne 0x80).wf = true ∧ (encode (.bne 0x80)).head? = some 0xD0 ∧ exec (.bne 0x80) ldaState = .next t ∧
      branchExtra (branchTaken (.bne 0x80) ldaState.p) ldaState.pc 0x80 = 2) :=
  ⟨⟨_, rfl, rfl, rfl, rfl⟩, ⟨_, rfl, rfl, rfl, by decide⟩⟩
theorem witness_StepAccessesFollowModeAndRoutine :
    ∃ t, staState.run = .running ∧ decode (bytesAtPc staState) = .ok (.sta (.absoluteX 0x12F0), []) ∧
      step staState = .next t := ⟨_, rfl, rfl, rfl⟩
/-- NOP writes none of the registers; so each clause has it for its witness. -/
theorem witness_RegistersNotInWriteTableAreUnchanged :
    ∃ t, Instr.nop.wf = true ∧ exec .nop ldaState = .next t ∧ Instr.nop.writesA = false ∧ Instr.nop.writesX = false ∧
      Instr.nop.writesY = false ∧ Instr.nop.writesSP = false ∧ Instr.nop.writesPC = false ∧
      ∀ op, Instr.nop ≠ .kil op ∧ Instr.nop ≠ .invalid op := ⟨_, rfl, rfl, rfl, rfl, rfl, rfl, rfl, by simp⟩
theorem witness_FlagsNotInWriteTableAreUnchanged :
    ∃ t, (Instr.txs).wf = true ∧ exec .txs ldaState = .next t ∧ Instr.txs.writesNZ = false ∧ Instr.txs.writesV = false ∧
      Instr.txs.writesC = false ∧ Instr.txs.writesI = false ∧ Instr.txs.writesD = false ∧ Instr.txs.pullsFlags = false :=
  ⟨_, rfl, rfl, rfl, rfl, rfl, rfl, rfl, rfl⟩
/-- A store on the mirrored RAM, with a byte behind its address and one beside it; one on the flat RAM; and an instruction that
stores nothing. -/
theorem witness_BytesNotStoredToAreUnchanged :
    (∃ t, exec (.sta (.absolute 0x1FFF)) (ldaState.hostBus Bus.reference) = .next t ∧
      (0x07FF : Addr) ∈ (storedAddrs (.sta (.absolute 0x1FFF)) (ldaState.hostBus Bus.reference)).filterMap
        Bus.reference.storeCell ∧
      (0x1FFF : Addr) ∉ (storedAddrs (.sta (.absolute 0x1FFF)) (ldaState.hostBus Bus.reference)).filterMap
        Bus.reference.storeCell) ∧
    (∃ t, exec (.sta (.absolute 0xFFFF)) ldaState = .next t ∧ ldaState.bus.regions = [] ∧
      (0x0000 : Addr) ∉ storedAddrs (.sta (.absolute 0xFFFF)) ldaState) ∧
    (∃ t, exec (.asl .accumulator) ldaState = .next t ∧ storedAddrs (.asl .accumulator) ldaState = []) :=
  ⟨⟨_, rfl, by decide, by decide⟩, ⟨_, rfl, rfl, by decide⟩, ⟨_, rfl, rfl⟩⟩
theorem witness_DecimalAndInterruptFlagsAreInert :
    ∃ t, (Instr.adc (.immediate 0x01)).pushesFlags = false ∧ exec (.adc (.immediate 0x01)) ldaState = .next t ∧
      (Instr.adc (.immediate 0x01)).writesD = false ∧ (Instr.adc (.immediate 0x01)).writesI = false :=
  ⟨_, rfl, rfl, rfl, rfl⟩
theorem witness_ZeroPageAddressesStayInPageZero :
    Operand.zeroPageX 0xFF ∈ [Operand.zeroPage 0xFF, .zeroPageX 0xFF, .zeroPageY 0xFF] ∧
    Operand.indirectX 0xFF ∈ [Operand.indirectX 0xFF, .indirectY 0xFF] := by decide
theorem witness_ResetOperationKeepsMemoryOnly :
    ∃ t, ({ State.reset with run := .faulted } : State).run ≠ .running ∧
      step { State.reset with run := .faulted } = .next t := ⟨_, by decide, rfl⟩
theorem witness_PushAndPullWrapInPageOne :
    { ldaState with sp := 0x00 }.mem.wf = true ∧ { ldaState with sp := 0x00 }.bus.regions = [] := by decide
theorem witness_FlagByteLayoutPushAndPull : 7 < 8 ∧ State.reset.p.u = true := by decide
/-- Two lists of writes in different orders make one canonical memory. -/
theorem witness_CanonicalMemoriesThatReadAlikeAreEqual :
    ∃ m m' : Memory, m.wf = true ∧ m'.wf = true ∧ ∀ a, m.read a = m'.read a :=
  ⟨(ldaState.mem.write 0xFFFF 0x01).write 0x0000 0x02, (ldaState.mem.write 0x0000 0x02).write 0xFFFF 0x01,
    by decide, by decide, fun _ => rfl⟩
theorem witness_PlacedTableWordIsRunNext :
    State.reset.mem.wf = true ∧ decodeTableWord 16 0xFFA9 = some (.lda (.immediate 0xFF)) := by decide
theorem witness_StoreIsSeenByNextFetch :
    State.reset.mem.wf = true ∧ State.reset.bus.regions = [] ∧ ∃ t u, exec (.sta (.absolute State.reset.pc)) State.reset = .next t ∧
      t.run = .running ∧ step t = .next u := ⟨rfl, rfl, _, _, rfl, rfl, rfl⟩
/-- SP at the bottom of its page, so that the pushes wrap. -/
theorem witness_RtsUndoesJsr : { ldaState with sp := 0x00 }.mem.wf = true ∧ { ldaState with sp := 0x00 }.bus.regions = [] := by decide
theorem witness_RtiUndoesBrk : { ldaState with sp := 0x01 }.mem.wf = true ∧ { ldaState with sp := 0x01 }.bus.regions = [] := by decide
theorem witness_PullsUndoPushes : { ldaState with sp := 0x00, a := 0x7E }.mem.wf = true ∧ { ldaState with sp := 0x00, a := 0x7E }.bus.regions = [] := by decide
/-- A pair (mode, byte) of a row, and a well-formed term. -/
theorem witness_HasEncodings :
    ((Operand.indirectY 0xFF).mode, (0x71 : Byte)) ∈ [(Mode.immediate, (0x69 : Byte)), (.indirectY, 0x71)] ∧
    (Instr.adc (.indirectY 0xFF)).wf = true := by decide
theorem witness_StoresWriteAtEffectiveAddress :
    (Instr.sta (.absoluteX 0xFFFF)).wf = true ∧ (Instr.stx (.zeroPageY 0xFF)).wf = true ∧
    (Instr.sty (.zeroPageX 0xFF)).wf = true ∧ (Instr.sax (.indirectX 0xFF)).wf = true ∧
    (resolve (.absoluteX 0xFFFF) staState).1.ea = some 0x000F := by decide
theorem witness_IncAndDecRewriteMemory :
    (Instr.inc (.zeroPage 0x00)).wf = true ∧ (Instr.dec (.absoluteX 0xFFFF)).wf = true ∧
    (resolve (.zeroPage 0x00) ldaState).1.ea = some 0x0000 := by decide
theorem witness_ModifyCombinationsRewriteThenOperate :
    (Instr.slo (.indirectY 0xFF)).wf = true ∧ (resolve (.indirectY 0xFF) ldaState).1.ea = some 0x0000 := by decide
theorem witness_CombinationsAreTwoMicroOperations :
    (Instr.slo (.indirectY 0xFF)).wf = true ∧
    (Instr.isc (.indirectY 0xFF), Instr.inc (.indirectY 0xFF), Instr.sbc) ∈
      [(Instr.slo (.indirectY 0xFF), Instr.asl (.indirectY 0xFF), Instr.ora),
       (.isc (.indirectY 0xFF), .inc (.indirectY 0xFF), .sbc)] := ⟨rfl, by simp⟩
theorem witness_KilHalts :
    (place [0xF2] [] State.reset).run = .running ∧ (place [0xF2] [] State.reset).answer 0 0xC000 = 0xF2 ∧
    (Instr.kil 0xF2).wf = true := by decide
theorem witness_InvalidOpcodeFaults :
    (place [0x9F] [] State.reset).run = .running ∧ (place [0x9F] [] State.reset).answer 0 0xC000 = 0x9F ∧
    (Instr.invalid 0x9F).wf = true := by decide

end Sys2Proof.Tests
end

section
/-! PROOFS. The flag byte as a list of bits: what its bits are, what a push forces, what a pull takes (R14 to R16). -/

namespace Sys2Proof.Machine

/-- The weighted sum of R14 is the list of the flags, from bit 0 up; the list's byte bounds the sum. -/
theorem Flags.toByte_eq_ofBoolListLE (p : Flags) :
    p.toByte = BitVec.ofBoolListLE [p.c, p.z, p.i, p.d, p.b, p.u, p.v, p.n] := by
  have hlt := (BitVec.ofBoolListLE [p.c, p.z, p.i, p.d, p.b, p.u, p.v, p.n]).isLt
  apply BitVec.eq_of_toNat_eq
  simp only [Flags.toByte, BitVec.ofBoolListLE, BitVec.toNat_concat, BitVec.toNat_ofNat, List.length] at hlt ⊢
  omega

/-- Bit `k` of the flag byte, for every `k`: past bit 7 both sides are 0. -/
theorem Flags.getLsbD_toByte (p : Flags) (k : Nat) :
    p.toByte.getLsbD k = [p.c, p.z, p.i, p.d, p.b, p.u, p.v, p.n].getD k false := by
  rw [Flags.toByte_eq_ofBoolListLE, BitVec.getLsbD_ofBoolListLE]

/-- PHP pushes the byte of the flags with B set. -/
theorem Flags.packPhp_eq_toByte (p : Flags) : p.packPhp = { p with b := true }.toByte := by
  apply BitVec.eq_of_getLsbD_eq
  intro k hk
  rw [Flags.packPhp, BitVec.getLsbD_or, Flags.getLsbD_toByte, Flags.getLsbD_toByte]
  interval_cases k <;> simp

/-- BRK pushes the byte of the flags with B and U set. -/
theorem Flags.packBrk_eq_toByte (p : Flags) : p.packBrk = { p with b := true, u := true }.toByte := by
  apply BitVec.eq_of_getLsbD_eq
  intro k hk
  rw [Flags.packBrk, BitVec.getLsbD_or, Flags.getLsbD_toByte, Flags.getLsbD_toByte]
  interval_cases k <;> simp

/-- A pull of a flag byte gives its flags back, but for B, which is cleared, and U, which is set. -/
theorem Flags.unpack_toByte (p : Flags) : Flags.unpack p.toByte = { p with b := false, u := true } := by
  simp only [Flags.unpack, Flags.getLsbD_toByte]
  rfl

end Sys2Proof.Machine

open Sys2Proof.Machine

/-- Settles O27: the layout is the list of bits; each pushed byte is itself a flag byte, so the two pushes differ in stored
U only, and a pull of either is a pull of a flag byte. -/
theorem flagByteLayoutPushAndPull : Obligations.FlagByteLayoutPushAndPull := by
  unfold Obligations.FlagByteLayoutPushAndPull
  refine ⟨fun p k _ => p.getLsbD_toByte k, fun p => ⟨rfl, rfl, fun hu => ?_⟩, fun _ => rfl, fun p => ⟨?_, ?_⟩⟩
  · rw [Flags.packPhp_eq_toByte, Flags.packBrk_eq_toByte, ← hu]
  · rw [Flags.packPhp_eq_toByte, Flags.unpack_toByte]
  · rw [Flags.packBrk_eq_toByte, Flags.unpack_toByte]
end

section
/-! PROOFS. Which flags a step leaves alone: the flags through the shared operations, the frame rule of each instruction
shape for any part of the flags, and the part that R17 speaks of, stored B and U. -/

namespace Sys2Proof.Machine

@[simp] theorem writeBack_p (ea : Option Addr) (v : Byte) (s : State) : (writeBack ea v s).p = s.p := by
  cases ea <;> rfl

@[simp] theorem storeAt_p (ea : Option Addr) (v : Byte) (s : State) : (storeAt ea v s).p = s.p := by
  cases ea <;> rfl

@[simp] theorem jumpTo_p (ea : Option Addr) (s : State) : (jumpTo ea s).p = s.p := by
  cases ea <;> rfl

@[simp] theorem takeTrap_p (s : State) : (takeTrap s).p = s.p := by
  rw [takeTrap_eq]
  rfl

@[simp] theorem fetchOperands_p (op : Byte) (s : State) : (fetchOperands op s).2.p = s.p := by
  unfold fetchOperands
  split <;> rfl

/-- Fetching an instruction changes no flag. -/
@[simp] theorem fetchInstr_p (s : State) : (fetchInstr s).2.p = s.p :=
  fetchOperands_p _ _

/-- What a step can do: run the fetched instruction while Running, else leave the state but for its outputs (R84, R86). -/
theorem step_cases {s t : State} (h : step s = .next t) :
    (s.run = .running ∧ exec (fetchInstr s).1 (fetchInstr s).2 = .next t) ∨
    (s.run = .halted ∧ t = s.idle .halted) ∨ (s.run = .faulted ∧ t = s.idle .faulted) := by
  unfold step at h
  split at h
  next hrun => exact .inl ⟨hrun, h⟩
  next hrun => cases h; exact .inr (.inl ⟨hrun, rfl⟩)
  next hrun => cases h; exact .inr (.inr ⟨hrun, rfl⟩)

/-! ### Frame rules: a part `f` of the flags that the routine keeps, the instruction keeps -/

section
variable {α : Type} {f : Flags → α} {s t : State}

theorem runOperand_keeps_flags {base extra : Nat} {o : Operand} {routine : Byte → Option Addr → State → State}
    (h : runOperand base extra o routine s = .next t) (hr : ∀ m ea u, f (routine m ea u).p = f u.p) :
    f t.p = f s.p := by
  rw [runOperand_eq] at h
  cases h
  exact hr _ _ _

theorem runRead_keeps_flags {o : Operand} {routine : Byte → State → State} (h : runRead o routine s = .next t)
    (hr : ∀ m u, f (routine m u).p = f u.p) : f t.p = f s.p :=
  runOperand_keeps_flags h fun m _ u => hr m u

theorem runModify_keeps_flags {o : Operand} {routine : Byte → Option Addr → State → State}
    (h : runModify o routine s = .next t) (hr : ∀ m ea u, f (routine m ea u).p = f u.p) : f t.p = f s.p :=
  runOperand_keeps_flags h hr

theorem runImplied_keeps_flags {cycles : Nat} {routine : State → State} (h : runImplied cycles routine s = .next t)
    (hr : ∀ u, f (routine u).p = f u.p) : f t.p = f s.p :=
  runOperand_keeps_flags h fun _ _ u => hr u

/-- A store changes no flag. -/
theorem runStore_flags {o : Operand} {v : Byte} (h : runStore o v s = .next t) : t.p = s.p :=
  runOperand_keeps_flags (f := id) h fun _ ea u => storeAt_p ea v u

/-- A branch changes no flag. -/
theorem runBranch_flags {cond : Bool} {offset : Byte} (h : runBranch cond offset s = .next t) : t.p = s.p := by
  rw [runBranch_eq] at h
  cases cond <;> cases h <;> rfl

end

/-! ### Stored B and U -/

/-- The two stored flags that only a pull of the flags writes, B and U (R16, R17). -/
def Flags.breakAndUnused (p : Flags) : Bool × Bool := (p.b, p.u)

theorem Flags.breakAndUnused_eq_iff {p : Flags} {b u : Bool} : p.breakAndUnused = (b, u) ↔ p.b = b ∧ p.u = u :=
  Prod.mk_inj

/-- R16, R21: an instruction that does not pull the flags leaves stored B and U as they were. -/
theorem exec_keeps_breakAndUnused {i : Instr} {s t : State} (hi : i.pullsFlags = false) (h : exec i s = .next t) :
    t.p.breakAndUnused = s.p.breakAndUnused := by
  cases i <;> dsimp only [exec] at h
  case adc | sbc | and | eor | ora | bit | cmp | cpx | cpy | lda | ldx | ldy | lax | laxImmediate | anc | alr | arr
      | xaa | axs | sbcEB | las | nopTwoByte | nopThreeByte =>
    exact runRead_keeps_flags h fun _ _ => rfl
  case rts | pha | pla | php | tax | tay | tsx | txa | tya | txs | inx | iny | dex | dey | clc | cld | cli | clv
      | sec | sed | sei | nop | nopOneByte =>
    exact runImplied_keeps_flags h fun _ => rfl
  case brk => exact runImplied_keeps_flags h fun _ => congrArg _ (takeTrap_p _)
  case asl | lsr | rol | ror | inc | dec | slo | rla | sre | rra | dcp | isc =>
    exact runModify_keeps_flags h fun _ _ _ => by simp [Flags.breakAndUnused]
  case sta | stx | sty | sax => exact congrArg _ (runStore_flags h)
  case jmp | jmpIndirect | jsr => exact runOperand_keeps_flags h fun _ _ _ => congrArg _ (jumpTo_p _ _)
  case bcc | bcs | beq | bne | bmi | bpl | bvc | bvs => exact congrArg _ (runBranch_flags h)
  case kil | invalid => cases h; rfl
  case plp | rti => cases hi

/-- R16: an instruction that pulls the flags leaves B = 0 and U = 1. -/
theorem exec_breakAndUnused_of_pullsFlags {i : Instr} {s t : State} (hi : i.pullsFlags = true)
    (h : exec i s = .next t) : t.p.breakAndUnused = (false, true) := by
  cases i
  case plp | rti => cases h; rfl
  all_goals cases hi

/-- R17: an instruction executed with B = 0 and U = 1 leaves them so. -/
theorem exec_breakAndUnused_invariant {i : Instr} {s t : State} (hs : s.p.breakAndUnused = (false, true))
    (h : exec i s = .next t) : t.p.breakAndUnused = (false, true) := by
  cases hi : i.pullsFlags with
  | false => rw [exec_keeps_breakAndUnused hi h, hs]
  | true => exact exec_breakAndUnused_of_pullsFlags hi h

/-- R17: a step with B = 0 and U = 1 before it leaves them so: fetching and idling change no flag. -/
theorem step_breakAndUnused_invariant {s t : State} (hs : s.p.breakAndUnused = (false, true))
    (h : step s = .next t) : t.p.breakAndUnused = (false, true) := by
  obtain ⟨-, hexec⟩ | ⟨-, rfl⟩ | ⟨-, rfl⟩ := step_cases h
  · exact exec_breakAndUnused_invariant (by rw [fetchInstr_p, hs]) hexec
  · exact hs
  · exact hs

end Sys2Proof.Machine

open Sys2Proof.Machine

/-- Settles O8: reset has B = 0 and U = 1, every step keeps the pair, and bits 5 and 4 of the flag byte are that pair. -/
theorem stepKeepsBreakClearAndUnusedSet : Obligations.StepKeepsBreakClearAndUnusedSet := by
  unfold Obligations.StepKeepsBreakClearAndUnusedSet
  refine ⟨⟨rfl, rfl⟩, fun s t hb hu h => ?_⟩
  have hpair := step_breakAndUnused_invariant (Flags.breakAndUnused_eq_iff.2 ⟨hb, hu⟩) h
  obtain ⟨hb', hu'⟩ := Flags.breakAndUnused_eq_iff.1 hpair
  exact ⟨hb', hu', (t.p.getLsbD_toByte 5).trans hu', (t.p.getLsbD_toByte 4).trans hb'⟩
end

section
/-! PROOFS. The state after reset. -/

open Sys2Proof.Machine

/-- Settles O5: R19's values, field by field; they are the fields of the state given as reset's, and the flag byte is the
sum of the two flags that are set. -/
theorem resetStateIsAsSpecified : Obligations.ResetStateIsAsSpecified := by
  unfold Obligations.ResetStateIsAsSpecified
  refine ⟨?a, ?x, ?y, ?sp, ?pc, ?c, ?z, ?i, ?d, ?b, ?u, ?v, ?n, ?flagByte, ?run, ?accesses⟩ <;> rfl
end

section
/-! PROOFS. A step while CORE is Halted or Faulted (R86). -/

namespace Sys2Proof.Machine

theorem step_of_halted {s : State} (h : s.run = .halted) : step s = .next (s.idle .halted) := by
  simp only [step, h]

theorem step_of_faulted {s : State} (h : s.run = .faulted) : step s = .next (s.idle .faulted) := by
  simp only [step, h]

end Sys2Proof.Machine

open Sys2Proof.Machine

/-- Settles O14: each latched state idles, and idling replaces the outputs only. -/
theorem nonRunningStepChangesNothing : Obligations.NonRunningStepChangesNothing := by
  unfold Obligations.NonRunningStepChangesNothing
  exact fun _ => ⟨step_of_halted, step_of_faulted⟩
end

section
/-! PROOFS. Branch targets and pages in integers (R120): the words of the statements are the model's operations. -/

namespace Sys2Proof.Machine

theorem hiByte_toNat (w : Addr) : (hiByte w).toNat = w.toNat / 256 := by
  simp only [hiByte, BitVec.extractLsb'_toNat, Nat.shiftRight_eq_div_pow]
  omega

theorem hiByte_eq_iff {w w' : Addr} : hiByte w = hiByte w' ↔ w.toNat / 256 = w'.toNat / 256 := by
  rw [← BitVec.toNat_inj, hiByte_toNat, hiByte_toNat]

theorem branchOffset_eq_toInt (offset : Byte) : branchOffset offset = offset.toInt := by
  rw [branchOffset, BitVec.toInt_eq_toNat_cond]
  split <;> split <;> omega

theorem branchTarget_eq (pc : Addr) (offset : Byte) : branchTarget pc offset = pc + sext16 offset := by
  rw [branchTarget, branchOffset_eq_toInt, BitVec.ofInt_add, BitVec.ofInt_natCast, BitVec.ofNat_toNat,
    BitVec.setWidth_eq]
  rfl

theorem branchExtra_not_taken (pc : Addr) (offset : Byte) : branchExtra false pc offset = 0 := rfl

/-- The extra of a taken branch, by the high bytes that the model compares. -/
theorem branchExtra_taken (pc : Addr) (offset : Byte) :
    branchExtra true pc offset = if hiByte (pc + sext16 offset) == hiByte pc then 1 else 2 := by
  simp only [branchExtra, branchTarget_eq, if_true, beq_iff_eq, hiByte_eq_iff]

end Sys2Proof.Machine
end

section
/-! PROOFS. The cost of an instruction, on either side of R85: what its execution returns and what the opcode table has in
its row, both against the counts of its kind and mode (R57). -/

namespace Sys2Proof.Machine

/-! ### The counts of an instruction -/

/-- The base count and the page-cross extra of a read instruction. -/
def readCounts (m : Mode) : Nat × Nat := (readCycles m, readCrossExtra m)

/-- The base count and the page-cross extra of a store. -/
def storeCounts (m : Mode) : Nat × Nat := (storeCycles m, 0)

/-- The base count and the page-cross extra of a read-modify-write instruction. -/
def rmwCounts (m : Mode) : Nat × Nat := (rmwCycles m, 0)

/-- The base count and the page-cross extra that the opcode table has for a byte. -/
def tableCounts (op : Byte) : Nat × Nat :=
  (tableBaseCycles.getD op.toNat 0, tableCrossExtra.getD op.toNat 0)

/-- The base count and the page-cross extra of an instruction, by its kind and its addressing mode (R57). -/
def instrCounts : Instr → Nat × Nat
  | .adc o | .sbc o | .and o | .eor o | .ora o | .bit o | .cmp o | .cpx o | .cpy o => readCounts o.mode
  | .lda o | .ldx o | .ldy o | .lax o | .nopTwoByte _ o | .nopThreeByte _ o => readCounts o.mode
  | .laxImmediate _ | .anc _ _ | .alr _ | .arr _ | .xaa _ | .axs _ | .sbcEB _ => readCounts .immediate
  | .las _ => readCounts .absoluteY
  | .sta o | .stx o | .sty o | .sax o => storeCounts o.mode
  | .asl o | .lsr o | .rol o | .ror o | .inc o | .dec o => rmwCounts o.mode
  | .slo o | .rla o | .sre o | .rra o | .dcp o | .isc o => rmwCounts o.mode
  | .bcc _ | .bcs _ | .beq _ | .bne _ | .bmi _ | .bpl _ | .bvc _ | .bvs _ => (2, 0)
  | .jmp _ => (3, 0)
  | .jmpIndirect _ => (5, 0)
  | .brk => (7, 0)
  | .jsr _ | .rts | .rti => (6, 0)
  | .pha | .php => (3, 0)
  | .pla | .plp => (4, 0)
  | .tax | .tay | .tsx | .txa | .tya | .txs | .inx | .iny | .dex | .dey => (2, 0)
  | .clc | .cld | .cli | .clv | .sec | .sed | .sei | .nop | .nopOneByte _ => (2, 0)
  | .kil _ | .invalid _ => (0, 0)

/-! ### What execution returns -/

/-- Both counts summed: the base count, and the extra when the operand crosses a page. -/
def operandCycles (counts : Nat × Nat) (o : Operand) (s : State) : Nat :=
  counts.1 + (if pageCrossed o s then counts.2 else 0)

/-- The cycles a branch adds by itself; 0 for every other instruction. -/
def ownExtra (i : Instr) (s : State) : Nat :=
  match i.operand with
  | .relative offset => branchExtra (branchTaken i s.p) s.pc offset
  | _ => 0

/-- An instruction whose branch condition never holds adds nothing, whatever its operand. -/
theorem ownExtra_of_never_taken {i : Instr} (hi : ∀ p, branchTaken i p = false) (s : State) : ownExtra i s = 0 := by
  unfold ownExtra
  split
  · rw [hi, branchExtra_not_taken]
  · rfl

section
variable {s t : State}

/-- The cycles of an instruction dispatched through an operand do not depend on its routine. -/
theorem runOperand_cycles {base extra : Nat} {o : Operand} {routine : Byte → Option Addr → State → State}
    (h : runOperand base extra o routine s = .next t) : t.out.cycles = operandCycles (base, extra) o s := by
  rw [runOperand_eq] at h
  cases h
  rfl

theorem runRead_cycles {o : Operand} {routine : Byte → State → State} (h : runRead o routine s = .next t) :
    t.out.cycles = operandCycles (readCounts o.mode) o s :=
  runOperand_cycles h

theorem runStore_cycles {o : Operand} {v : Byte} (h : runStore o v s = .next t) :
    t.out.cycles = operandCycles (storeCounts o.mode) o s :=
  runOperand_cycles h

theorem runModify_cycles {o : Operand} {routine : Byte → Option Addr → State → State}
    (h : runModify o routine s = .next t) : t.out.cycles = operandCycles (rmwCounts o.mode) o s :=
  runOperand_cycles h

theorem runImplied_cycles {cycles : Nat} {routine : State → State} (h : runImplied cycles routine s = .next t) :
    t.out.cycles = operandCycles (cycles, 0) .implied s :=
  runOperand_cycles h

theorem runBranch_cycles {cond : Bool} {offset : Byte} (h : runBranch cond offset s = .next t) :
    t.out.cycles = 2 + branchExtra cond s.pc offset := by
  rw [runBranch_eq] at h
  cases cond <;> cases h
  · rfl
  · rw [branchExtra_taken]
    rfl

/-- R85 by the counts of the instruction: a branch adds its own extra, KIL and the invalid bytes return 0, and every other
instruction is dispatched through its operand. Well-formedness plays no part. -/
theorem exec_cycles {i : Instr} (h : exec i s = .next t) :
    t.out.cycles = operandCycles (instrCounts i) i.operand s + ownExtra i s := by
  cases i <;> dsimp only [exec] at h
  case bcc | bcs | beq | bne | bmi | bpl | bvc | bvs => exact runBranch_cycles h
  case kil | invalid => cases h; rfl
  all_goals rw [ownExtra_of_never_taken fun _ => rfl]
  case adc | sbc | and | eor | ora | bit | cmp | cpx | cpy | lda | ldx | ldy | lax | laxImmediate | anc | alr | arr
      | xaa | axs | sbcEB | las | nopTwoByte | nopThreeByte =>
    exact runRead_cycles h
  case sta | stx | sty | sax => exact runStore_cycles h
  case asl | lsr | rol | ror | inc | dec | slo | rla | sre | rra | dcp | isc => exact runModify_cycles h
  case jmp | jmpIndirect | jsr => exact runOperand_cycles h
  all_goals exact runImplied_cycles h

end

/-! ### What the opcode table has -/

/-- The byte that encodes a mnemonic stands in its row, under the mode of the operand. -/
theorem mem_of_encodeRow_head? {row : MnemonicRow} {o : Operand} {op : Byte}
    (h : (encodeRow row o).head? = some op) : (o.mode, op) ∈ row := by
  unfold encodeRow at h
  split at h
  next hlookup =>
    obtain rfl := Option.some.inj h
    obtain ⟨l₁, l₂, hrow, -⟩ := List.lookup_eq_some_iff.1 hlookup
    simp [hrow]
  next => cases h

/-- If the table has the given counts for every cell of a mnemonic's row, it has them for the byte that encodes it. -/
theorem tableCounts_of_encodeRow {counts : Mode → Nat × Nat} {row : MnemonicRow} {o : Operand} {op : Byte}
    (hrow : ∀ cell ∈ row, tableCounts cell.2 = counts cell.1) (h : (encodeRow row o).head? = some op) :
    tableCounts op = counts o.mode :=
  hrow _ (mem_of_encodeRow_head? h)

/-- If the table has the given counts for every byte of a family, it has them for a byte the family contains. -/
theorem tableCounts_of_contains {counts : Nat × Nat} {family : List Byte} {op : Byte}
    (hfamily : ∀ byte ∈ family, tableCounts byte = counts) (h : family.contains op = true) : tableCounts op = counts :=
  hfamily _ (List.contains_iff_mem.1 h)

theorem tableCounts_nopTwoByte {m : Mode} : ∀ op ∈ nopTwoByteOpcodes m, tableCounts op = readCounts m := by
  cases m <;> decide

theorem tableCounts_nopThreeByte {m : Mode} : ∀ op ∈ nopThreeByteOpcodes m, tableCounts op = readCounts m := by
  cases m <;> decide

/-- R57: the row of the opcode table has the counts of the instruction its byte stands for. -/
theorem tableCounts_of_encode {i : Instr} {op : Byte} (hwf : i.wf = true) (hop : (encode i).head? = some op) :
    tableCounts op = instrCounts i := by
  cases i
  case adc | sbc | and | eor | ora | bit | cmp | cpx | cpy | lda | ldx | ldy | lax =>
    exact tableCounts_of_encodeRow (counts := readCounts) (by decide) hop
  case sta | stx | sty | sax => exact tableCounts_of_encodeRow (counts := storeCounts) (by decide) hop
  case asl | lsr | rol | ror | inc | dec | slo | rla | sre | rra | dcp | isc =>
    exact tableCounts_of_encodeRow (counts := rmwCounts) (by decide) hop
  all_goals obtain rfl := Option.some.inj hop
  case anc | nopOneByte => exact tableCounts_of_contains (counts := (2, 0)) (by decide) hwf
  case kil | invalid => exact tableCounts_of_contains (counts := (0, 0)) (by decide) hwf
  case nopTwoByte => exact tableCounts_of_contains tableCounts_nopTwoByte hwf
  case nopThreeByte => exact tableCounts_of_contains tableCounts_nopThreeByte hwf
  all_goals rfl

end Sys2Proof.Machine

open Sys2Proof.Machine

/-- Settles O18: execution returns the sum of the instruction's counts, and the table's columns are those counts. -/
theorem cycleCostIsTableSum : Obligations.CycleCostIsTableSum := by
  unfold Obligations.CycleCostIsTableSum
  intro i s t op hwf hop h
  obtain ⟨hbase, hcross⟩ := Prod.mk_inj.1 (tableCounts_of_encode hwf hop)
  rw [hbase, hcross]
  exact exec_cycles h
end

section
/-! PROOFS. The bits, flags and result bytes of the model against the statements' integers (R100, R106 to R111, R115). -/

namespace Sys2Proof.Machine

open Sys2Proof.Claims

/-! ### Bits of a byte -/

theorem getLsbD_seven_eq_topBit (v : Byte) : v.getLsbD 7 = topBit v :=
  BitVec.msb_eq_decide v

theorem getLsbD_zero_eq_lowBit (v : Byte) : v.getLsbD 0 = lowBit v := by
  rw [lowBit, BitVec.getLsbD, Nat.testBit_zero]

theorem getLsbD_six_eq_decide (v : Byte) : v.getLsbD 6 = decide (64 ≤ v.toNat % 128) := by
  rw [BitVec.getLsbD, Nat.testBit_eq_decide_div_mod_eq, decide_eq_decide]
  omega

theorem beq_zero_eq_decide (v : Byte) : (v == 0) = decide (v.toNat = 0) := by
  rw [Bool.eq_iff_iff, beq_iff_eq, decide_eq_true_iff, ← BitVec.toNat_inj]
  rfl

/-- A byte masked with 0x80 is not zero exactly when its sign is set. -/
theorem and_0x80_ne_zero_iff (v : Byte) : v &&& 0x80 ≠ 0 ↔ v.getLsbD 7 = true := by
  have hmask : v &&& 0x80 = if v.getLsbD 7 then 0x80 else 0 := BitVec.and_twoPow v 7
  rw [hmask]
  cases v.getLsbD 7 <;> decide

/-! ### SetNZ, Compare and BIT -/

/-- R115: SetNZ writes N and Z as the statements say them. -/
theorem Flags.setNZ_eq_nz (v : Byte) (p : Flags) : p.setNZ v = nz v p := by
  rw [Flags.setNZ, getLsbD_seven_eq_topBit, beq_zero_eq_decide]
  rfl

/-- The difference modulo 256 as the statement of R111 writes it. -/
theorem sub_eq_ofNat (r m : Byte) : r - m = BitVec.ofNat 8 (r.toNat + 256 - m.toNat) := by
  bv_omega

/-- R111: Compare, with N the sign of the difference of the integers. -/
theorem Flags.compare_eq_compared (r m : Byte) (p : Flags) : p.compare r m = compared r m p := by
  have hdiff : BitVec.ofInt 8 ((r.toNat : Int) - m.toNat) = r - m := by
    apply BitVec.eq_of_toNat_eq
    rw [BitVec.toNat_ofInt, BitVec.toNat_sub]
    omega
  have hz : (r == m) = decide (r.toNat = m.toNat) := by
    rw [Bool.eq_iff_iff, beq_iff_eq, decide_eq_true_iff, BitVec.toNat_inj]
  rw [compared, hdiff, Flags.compare, getLsbD_seven_eq_topBit, hz]
  rfl

/-- R110: BIT's flags in integers. -/
theorem Flags.bitTest_eq (a m : Byte) (p : Flags) :
    p.bitTest a m = { p with
      z := decide ((a &&& m).toNat = 0), n := topBit m, v := decide (64 ≤ m.toNat % 128) } := by
  rw [Flags.bitTest, beq_zero_eq_decide, getLsbD_seven_eq_topBit, getLsbD_six_eq_decide]

/-! ### AddCore -/

theorem addResult_toNat (a m : Byte) (c : Bool) : (addResult a m c).toNat = (a.toNat + m.toNat + c.toNat) % 256 :=
  BitVec.toNat_ofNat _ _

/-- R100: the flags of AddCore in integers, V by the sign rule. -/
theorem Flags.addCore_eq (a m : Byte) (c : Bool) (p : Flags) :
    p.addCore a m c = { nz (addResult a m c) p with
      v := (topBit a == topBit m) && (topBit (addResult a m c) != topBit a)
      c := decide (a.toNat + m.toNat + c.toNat > 255) } := by
  simp only [Flags.addCore, getLsbD_seven_eq_topBit, beq_zero_eq_decide]
  rfl

/-- The sign rule is the signed overflow: two operands of one sign have a sum of the other sign exactly when the signed sum
does not fit a byte. -/
theorem signRule_eq_overflows (a m : Byte) (c : Bool) :
    ((topBit a == topBit m) && (topBit (addResult a m c) != topBit a)) =
      overflows (a.toInt + m.toInt + (c.toNat : Int)) := by
  have hc := c.toNat_le
  rw [Bool.eq_iff_iff]
  simp only [topBit, overflows, addResult_toNat, Bool.and_eq_true, beq_iff_eq, bne_iff_ne, ne_eq, decide_eq_decide,
    decide_eq_true_iff, BitVec.toInt_eq_toNat_cond]
  split <;> split <;> omega

/-- The sign rule on the mask of the sign bit. -/
theorem signRule_iff_mask (a m r : Byte) :
    ((topBit a == topBit m) && (topBit r != topBit a)) = true ↔ ((a ^^^ r) &&& (m ^^^ r) &&& 0x80) ≠ 0 := by
  rw [and_0x80_ne_zero_iff, BitVec.getLsbD_and, BitVec.getLsbD_xor, BitVec.getLsbD_xor]
  simp only [getLsbD_seven_eq_topBit]
  cases topBit a <;> cases topBit m <;> cases topBit r <;> decide

/-- R101: AddCore into A is the addition of the statements. -/
theorem State.addToA_eq_added (m : Byte) (c : Bool) (s : State) : s.addToA m c = added m c s := by
  rw [State.addToA, Flags.addCore_eq, signRule_eq_overflows]
  rfl

/-- The complement that SBC adds. -/
theorem xor_0xFF_eq_not (m : Byte) : m ^^^ 0xFF = ~~~m := BitVec.xor_allOnes

theorem xor_0xFF_toNat (m : Byte) : (m ^^^ 0xFF).toNat = 255 - m.toNat := by
  rw [xor_0xFF_eq_not, BitVec.toNat_not]

theorem xor_0xFF_toInt (m : Byte) : (m ^^^ 0xFF).toInt = -m.toInt - 1 := by
  rw [xor_0xFF_eq_not, BitVec.toInt_eq_toNat_cond, BitVec.toInt_eq_toNat_cond, BitVec.toNat_not]
  split <;> split <;> omega

/-- R102: adding the complement subtracts the operand and the borrow: the sum is the difference plus 256, so there is a carry
exactly when there is no borrow, and the signed sum is the signed difference. -/
theorem State.addToA_complement_eq_subtracted (m : Byte) (s : State) :
    s.addToA (m ^^^ 0xFF) s.p.c = subtracted m s := by
  have hc := s.p.c.toNat_le
  have hresult : addResult s.a (m ^^^ 0xFF) s.p.c =
      BitVec.ofInt 8 ((s.a.toNat : Int) - m.toNat - (1 - s.p.c.toNat : Nat)) := by
    apply BitVec.eq_of_toNat_eq
    rw [addResult_toNat, xor_0xFF_toNat, BitVec.toNat_ofInt]
    omega
  have hcarry : decide (s.a.toNat + (m ^^^ 0xFF).toNat + s.p.c.toNat > 255) =
      decide (s.a.toNat ≥ m.toNat + (1 - s.p.c.toNat)) := by
    rw [xor_0xFF_toNat, decide_eq_decide]
    omega
  have hsigned : s.a.toInt + (m ^^^ 0xFF).toInt + (s.p.c.toNat : Int) =
      s.a.toInt - m.toInt - (1 - s.p.c.toNat : Nat) := by
    rw [xor_0xFF_toInt]
    omega
  rw [State.addToA, Flags.addCore_eq, signRule_eq_overflows, hresult, hsigned, hcarry]
  rfl

/-! ### The bytes of the shifts -/

/-- R108: ROL doubles, the old carry entering at bit 0. -/
theorem rolByte_eq_shiftedLeft (v : Byte) (c : Bool) : rolByte v c = shiftedLeft v c := by
  have hc : c.toNat < 2 ^ 1 := c.toNat_lt
  apply BitVec.eq_of_toNat_eq
  rw [rolByte, shiftedLeft, BitVec.toNat_or, BitVec.toNat_shiftLeft, BitVec.toNat_ofNat, BitVec.toNat_ofNat,
    ← Nat.or_mod_two_pow, ← Nat.shiftLeft_add_eq_or_of_lt hc, Nat.shiftLeft_eq, Nat.mul_comm]

/-- R109: ROR halves, the old carry entering at bit 7. -/
theorem rorByte_eq_shiftedRight (v : Byte) (c : Bool) : rorByte v c = shiftedRight v c := by
  have hhalf : v.toNat / 2 < 2 ^ 7 := by omega
  have hor := Nat.shiftLeft_add_eq_or_of_lt hhalf c.toNat
  have hc := c.toNat_le
  apply BitVec.eq_of_toNat_eq
  rw [Nat.shiftLeft_eq, Nat.or_comm] at hor
  rw [rorByte, shiftedRight, BitVec.toNat_or, BitVec.toNat_ushiftRight, BitVec.toNat_ofNat, BitVec.toNat_ofNat,
    Nat.shiftRight_eq_div_pow, Nat.mod_eq_of_lt (by omega : c.toNat * 128 < 2 ^ 8), ← hor]
  omega

/-- R106: ASL is ROL with a 0 entering. -/
theorem shiftLeft_one_eq_shiftedLeft (v : Byte) : v <<< 1 = shiftedLeft v false := by
  rw [← rolByte_eq_shiftedLeft]
  exact BitVec.or_zero.symm

/-- R107: LSR is ROR with a 0 entering. -/
theorem shiftRight_one_eq_shiftedRight (v : Byte) : v >>> 1 = shiftedRight v false := by
  rw [← rorByte_eq_shiftedRight]
  exact BitVec.or_zero.symm

end Sys2Proof.Machine
end

section
/-! PROOFS. The whole next state of a read and of a read-modify-write instruction, for every operand: the routine, run on the
state of the statements that has the operand read and the instruction completed. -/

namespace Sys2Proof.Machine

open Sys2Proof.Claims

/-- A routine that neither reads nor writes the status and the cycle count: completing the instruction before it or after it
is the same. -/
def CompletesEitherWay (routine : State → State) : Prop :=
  ∀ (base crossExtra : Nat) (crossed : Bool) (extraR : Nat) (t : State),
    (routine t).complete base crossExtra crossed extraR = routine (t.complete base crossExtra crossed extraR)

section
variable {o : Operand} {s : State}

theorem runOperand_eq_done {base crossExtra : Nat} {routine : Byte → Option Addr → State → State}
    (hr : ∀ v ea, CompletesEitherWay (routine v ea)) :
    runOperand base crossExtra o routine s =
      .next (routine (operandValue o s) (effectiveAddr o s) (done o (operandCycles (base, crossExtra) o s) s)) := by
  rw [runOperand_eq, hr]
  rfl

/-- The crossing extra of a read instruction's mode is 1 in each mode that reports a crossing (R57, R80). -/
theorem operandCycles_readCounts (o : Operand) (s : State) : operandCycles (readCounts o.mode) o s = readCost o s := by
  cases o <;> rfl

/-- A read-modify-write instruction has no crossing extra. -/
theorem operandCycles_rmwCounts (o : Operand) (s : State) : operandCycles (rmwCounts o.mode) o s = rmwCycles o.mode := by
  rw [operandCycles, rmwCounts, ite_self]
  rfl

theorem runRead_eq_done (routine : Byte → State → State) (hr : ∀ v, CompletesEitherWay (routine v)) :
    runRead o routine s = .next (routine (operandValue o s) (done o (readCost o s) s)) := by
  rw [← operandCycles_readCounts]
  exact runOperand_eq_done fun v _ => hr v

theorem runModify_eq_done {routine : Byte → Option Addr → State → State}
    (hr : ∀ v ea, CompletesEitherWay (routine v ea)) :
    runModify o routine s =
      .next (routine (operandValue o s) (effectiveAddr o s) (done o (rmwCycles o.mode) s)) := by
  rw [← operandCycles_rmwCounts]
  exact runOperand_eq_done hr

end

/-- R106 to R109, R116: a shift that makes the byte `result` of the operand and the old carry, and puts `carry` of the operand
into C, leaves the shifted state of the statements. -/
theorem runShift_eq_shifted (o : Operand) (result : Byte → Bool → Byte) (carry : Byte → Bool) (s : State) :
    runModify o (fun v ea t => writeBack ea (result v t.p.c) ((t.setC (carry v)).setNZ (result v t.p.c))) s =
      .next (shifted o (result (operandValue o s) s.p.c) (carry (operandValue o s)) s) := by
  have hcompletes (v : Byte) (ea : Option Addr) : CompletesEitherWay fun t =>
      writeBack ea (result v t.p.c) ((t.setC (carry v)).setNZ (result v t.p.c)) := by
    intro base crossExtra crossed extraR t
    cases ea <;> rfl
  rw [runModify_eq_done hcompletes, shifted, resolve_eq, State.setNZ, Flags.setNZ_eq_nz]
  cases effectiveAddr o s <;> rfl

end Sys2Proof.Machine
end

section
/-! PROOFS. The encodings of a mnemonic with an addressing mode: its row of R53. -/

namespace Sys2Proof

open Sys2Proof.Claims

/-- A mnemonic that is well-formed in the modes of its row, and is encoded by a row that has one byte for each mode, has the
row's encodings. -/
theorem hasEncodings_of_row {mk : Operand → Instr} {row : MnemonicRow}
    (hwf : ∀ o, (mk o).wf = (row.map Prod.fst).contains o.mode) (hencode : ∀ o, encode (mk o) = encodeRow row o)
    (hrow : ∀ cell ∈ row, row.lookup cell.1 = some cell.2) : HasEncodings mk row := by
  refine fun o => ⟨by rw [hwf, List.contains_iff_mem], fun opcode hmem => ?_⟩
  have hlookup : row.lookup o.mode = some opcode := hrow (o.mode, opcode) hmem
  rw [hencode, encodeRow, hlookup]

end Sys2Proof
end

section
/-! PROOFS. Arithmetic and logic (spec/41_arith_logic.md): AddCore, Compare and SetNZ, then each instruction's whole next state
and its encodings. -/

open Sys2Proof Sys2Proof.Machine Sys2Proof.Claims

/-- Settles O28: the flags in integers, V by the sign rule, which is the signed overflow and the mask of the sign bit. -/
theorem addCoreComputesSumAndFlags : Obligations.AddCoreComputesSumAndFlags := by
  unfold Obligations.AddCoreComputesSumAndFlags
  intro a m c p
  refine ⟨addResult_toNat a m c, Flags.addCore_eq a m c p, ?overflow, ?mask⟩
  case overflow => rw [Flags.addCore_eq, signRule_eq_overflows]
  case mask => rw [Flags.addCore_eq, signRule_iff_mask]

/-- Settles O29: N of Compare is the sign of the difference modulo 256, and SetNZ's flags are read off the integer. -/
theorem compareAndSetNZWriteTheirFlags : Obligations.CompareAndSetNZWriteTheirFlags := by
  unfold Obligations.CompareAndSetNZWriteTheirFlags
  refine ⟨fun r m p => ?compare, Flags.setNZ_eq_nz⟩
  rw [Flags.compare, sub_eq_ofNat, getLsbD_seven_eq_topBit, beq_eq_decide]

/-- Settles O33: the encodings are the rows; ADC runs AddCore on the operand, SBC and 0xEB on its complement. -/
theorem adcAndSbcComputeInBinary : Obligations.AdcAndSbcComputeInBinary := by
  unfold Obligations.AdcAndSbcComputeInBinary
  refine ⟨hasEncodings_of_row (fun _ => rfl) (fun _ => rfl) (by decide),
    hasEncodings_of_row (fun _ => rfl) (fun _ => rfl) (by decide), fun _ => rfl, fun o s v => ⟨?adc, ?sbc, ?sbcEB⟩⟩
  case adc =>
    rw [← State.addToA_eq_added]
    exact runRead_eq_done (fun v t => t.addToA v t.p.c) fun _ _ _ _ _ _ => rfl
  case sbc =>
    rw [← State.addToA_complement_eq_subtracted]
    exact runRead_eq_done (fun v t => t.addToA (v ^^^ 0xFF) t.p.c) fun _ _ _ _ _ _ => rfl
  case sbcEB =>
    rw [← State.addToA_complement_eq_subtracted]
    exact runRead_eq_done (fun v t => t.addToA (v ^^^ 0xFF) t.p.c) fun _ _ _ _ _ _ => rfl

/-- Settles O34: the encodings are the rows; each instruction loads A with its combination, whose N and Z the load sets. -/
theorem logicCombinesIntoA : Obligations.LogicCombinesIntoA := by
  unfold Obligations.LogicCombinesIntoA
  refine ⟨hasEncodings_of_row (fun _ => rfl) (fun _ => rfl) (by decide),
    hasEncodings_of_row (fun _ => rfl) (fun _ => rfl) (by decide),
    hasEncodings_of_row (fun _ => rfl) (fun _ => rfl) (by decide), fun o s => ?_⟩
  simp only [← Flags.setNZ_eq_nz]
  refine ⟨?and, ?eor, ?ora⟩
  case and => exact runRead_eq_done (fun v t => t.loadA (t.a &&& v)) fun _ _ _ _ _ _ => rfl
  case eor => exact runRead_eq_done (fun v t => t.loadA (t.a ^^^ v)) fun _ _ _ _ _ _ => rfl
  case ora => exact runRead_eq_done (fun v t => t.loadA (t.a ||| v)) fun _ _ _ _ _ _ => rfl

/-- Settles O35: the encodings are the rows; each instruction is a shift by the byte it makes and the bit it moves into C. -/
theorem shiftsMoveOneBitThroughCarry : Obligations.ShiftsMoveOneBitThroughCarry := by
  unfold Obligations.ShiftsMoveOneBitThroughCarry
  refine ⟨hasEncodings_of_row (fun _ => rfl) (fun _ => rfl) (by decide),
    hasEncodings_of_row (fun _ => rfl) (fun _ => rfl) (by decide),
    hasEncodings_of_row (fun _ => rfl) (fun _ => rfl) (by decide),
    hasEncodings_of_row (fun _ => rfl) (fun _ => rfl) (by decide), fun _ => rfl, fun o s => ?_⟩
  simp only [← getLsbD_seven_eq_topBit, ← getLsbD_zero_eq_lowBit]
  refine ⟨?asl, ?lsr, ?rol, ?ror⟩
  case asl =>
    rw [← shiftLeft_one_eq_shiftedLeft]
    exact runShift_eq_shifted o (fun v _ => v <<< 1) (fun v => v.getLsbD 7) s
  case lsr =>
    rw [← shiftRight_one_eq_shiftedRight]
    exact runShift_eq_shifted o (fun v _ => v >>> 1) (fun v => v.getLsbD 0) s
  case rol =>
    rw [← rolByte_eq_shiftedLeft]
    exact runShift_eq_shifted o rolByte (fun v => v.getLsbD 7) s
  case ror =>
    rw [← rorByte_eq_shiftedRight]
    exact runShift_eq_shifted o rorByte (fun v => v.getLsbD 0) s

/-- Settles O36: the encodings are the rows; BIT and the compares replace the flags by BIT's and Compare's, no more. -/
theorem bitAndComparesWriteFlagsOnly : Obligations.BitAndComparesWriteFlagsOnly := by
  unfold Obligations.BitAndComparesWriteFlagsOnly
  refine ⟨hasEncodings_of_row (fun _ => rfl) (fun _ => rfl) (by decide),
    hasEncodings_of_row (fun _ => rfl) (fun _ => rfl) (by decide),
    hasEncodings_of_row (fun _ => rfl) (fun _ => rfl) (by decide),
    hasEncodings_of_row (fun _ => rfl) (fun _ => rfl) (by decide), fun o s => ?_⟩
  simp only [← Flags.bitTest_eq, ← Flags.compare_eq_compared]
  refine ⟨?bit, ?cmp, ?cpx, ?cpy⟩
  case bit => exact runRead_eq_done (fun v t => { t with p := t.p.bitTest t.a v }) fun _ _ _ _ _ _ => rfl
  case cmp => exact runRead_eq_done (fun v t => t.compare t.a v) fun _ _ _ _ _ _ => rfl
  case cpx => exact runRead_eq_done (fun v t => t.compare t.x v) fun _ _ _ _ _ _ => rfl
  case cpy => exact runRead_eq_done (fun v t => t.compare t.y v) fun _ _ _ _ _ _ => rfl
end

section
/-! PROOFS. Addresses in integers (R32, R35, R37, R82): the words of the statements are the model's operations. -/

namespace Sys2Proof.Machine

open Sys2Proof.Claims

theorem hiByte_eq_high (w : Addr) : hiByte w = high w := by
  rw [high, ← hiByte_toNat, BitVec.ofNat_toNat, BitVec.setWidth_eq]

theorem loByte_eq_low (w : Addr) : loByte w = low w := by
  apply BitVec.eq_of_toNat_eq
  simp [loByte, low]

theorem wordOf_eq_word (h l : Byte) : wordOf h l = word h l := by
  have hor := Nat.shiftLeft_add_eq_or_of_lt l.isLt h.toNat
  apply BitVec.eq_of_toNat_eq
  rw [wordOf, word, BitVec.toNat_append, ← hor, Nat.shiftLeft_eq, BitVec.toNat_ofNat]
  omega

/-- A word is its two bytes. -/
theorem wordOf_hiByte_loByte (w : Addr) : wordOf (hiByte w) (loByte w) = w :=
  (BitVec.extractLsb'_append_extractLsb'_eq_extractLsb' rfl).trans BitVec.extractLsb'_eq_self

theorem stackAddr_eq_cell (sp : Byte) : stackAddr sp = cell sp := by
  rw [cell, BitVec.ofNat_add, BitVec.ofNat_toNat]
  rfl

theorem wordOf_and (h l h' l' : Byte) : wordOf h l &&& wordOf h' l' = wordOf (h &&& h') (l &&& l') :=
  BitVec.and_append

theorem wordOf_or (h l h' l' : Byte) : wordOf h l ||| wordOf h' l' = wordOf (h ||| h') (l ||| l') :=
  BitVec.or_append

theorem and_0xFF00 (w : Addr) : w &&& 0xFF00 = wordOf (hiByte w) 0#8 := by
  have hmask : wordOf (BitVec.allOnes 8) 0#8 = 0xFF00 := by decide
  have hand := wordOf_and (hiByte w) (loByte w) (BitVec.allOnes 8) 0#8
  rwa [wordOf_hiByte_loByte, hmask, BitVec.and_allOnes, BitVec.and_zero] at hand

theorem and_0x00FF (w : Addr) : w &&& 0x00FF = wordOf 0#8 (loByte w) := by
  have hmask : wordOf 0#8 (BitVec.allOnes 8) = 0x00FF := by decide
  have hand := wordOf_and (hiByte w) (loByte w) 0#8 (BitVec.allOnes 8)
  rwa [wordOf_hiByte_loByte, hmask, BitVec.and_allOnes, BitVec.and_zero] at hand

/-- R82: the high byte of the pointer and the low byte of the next address. -/
theorem indirectHighAddr_eq_wordOf (pointer : Addr) :
    indirectHighAddr pointer = wordOf (hiByte pointer) (loByte (pointer + 1)) := by
  rw [indirectHighAddr, and_0xFF00, and_0x00FF, wordOf_or, BitVec.or_zero, BitVec.zero_or]

/-- R82: the address after the pointer, inside the pointer's page, in integers. -/
theorem indirectHighAddr_eq_ofNat (pointer : Addr) :
    indirectHighAddr pointer = BitVec.ofNat 16 (256 * (pointer.toNat / 256) + (pointer.toNat + 1) % 256) := by
  rw [indirectHighAddr_eq_wordOf, hiByte_eq_high, loByte_eq_low, wordOf_eq_word, word, high, low]
  bv_omega

end Sys2Proof.Machine
end

section
/-! PROOFS. The stack in the words of the statements (R35): a push and a pull, and the words, the trap entry and the trap
return made of them. -/

namespace Sys2Proof.Machine

open Sys2Proof.Claims

theorem push8_eq_pushed (v : Byte) (s : State) : push8 v s = pushed v s := by
  rw [push8_eq, stackAddr_eq_cell]
  rfl

theorem pull8_eq_pulled (s : State) : pull8 s = (stackByte s 1, pulled s) := by
  rw [pull8_eq, stackAddr_eq_cell]
  rfl

/-- A pull brings the bytes still on the stack one place nearer. -/
theorem stackByte_pulled (s : State) (k : Nat) : stackByte (pulled s) (k + 1) = stackByte s (k + 2) := by
  have hcell : s.sp + 1 + BitVec.ofNat 8 (k + 1) = s.sp + BitVec.ofNat 8 (k + 2) := by bv_omega
  calc stackByte (pulled s) (k + 1)
    _ = s.answer (1 + k) (cell (s.sp + 1 + BitVec.ofNat 8 (k + 1))) := answer_afterReads _ s k _
    _ = stackByte s (k + 2) := by
      rw [hcell, Nat.add_comm]
      rfl

theorem pushWord_eq_pushed (w : Addr) (s : State) : pushWord w s = pushed (low w) (pushed (high w) s) := by
  rw [pushWord, push8_eq_pushed, push8_eq_pushed, hiByte_eq_high, loByte_eq_low]

theorem pullWord_eq_pulled (s : State) :
    pullWord s = (word (stackByte s 2) (stackByte s 1), pulled (pulled s)) := by
  simp only [pullWord, pull8_eq_pulled, stackByte_pulled, wordOf_eq_word]

/-- R133: trap entry is three pushes, then the word at the vector as the bus answers after them. -/
theorem takeTrap_eq_pushed (s : State) :
    let t := pushed s.p.packBrk (pushed (low s.pc) (pushed (high s.pc) s))
    takeTrap s = { didRead 0xFFFF (didRead 0xFFFE t) with pc := word (t.answer 1 0xFFFF) (t.answer 0 0xFFFE) } := by
  simp only [takeTrap, pushWord_eq_pushed, push8_eq_pushed, readWord_eq, State.word, wordOf_eq_word, didRead,
    afterReads_afterReads]
  rfl

/-- R134: trap return is three pulls, the first of them of the flags. -/
theorem returnFromTrap_eq_pulled (s : State) :
    returnFromTrap s = { pulled (pulled (pulled s)) with
      p := Flags.unpack (stackByte s 1)
      pc := word (stackByte s 3) (stackByte s 2) } := by
  simp only [returnFromTrap, pull8_eq_pulled, pullWord_eq_pulled, ← stackByte_pulled]
  rfl

end Sys2Proof.Machine
end

section
/-! PROOFS. The whole next state of the instruction shapes of control flow: implied, with an operand that is only read, and a
branch. -/

namespace Sys2Proof.Machine

open Sys2Proof.Claims

theorem done_implied (cycles : Nat) (s : State) : done .implied cycles s = s.complete cycles 0 false 0 := by
  rw [done, show operandReadAddrs .implied s = [] from rfl, afterReads_nil]
  rfl

/-- The operand reads of an instruction may be told after its completion. -/
theorem afterReads_done_implied (o : Operand) (cycles : Nat) (s : State) :
    (done .implied cycles s).afterReads (operandReadAddrs o s) = done o cycles s := by
  have hreads : readsOf (s.complete cycles 0 false 0) (operandReadAddrs o s) = readsOf s (operandReadAddrs o s) :=
    readsFrom_congr (s := s) (t := s.complete cycles 0 false 0) rfl rfl 0 _
  rw [done_implied, State.afterReads, hreads]
  rfl

theorem didRead_done_implied (a : Addr) (cycles : Nat) (s : State) :
    didRead a (done .implied cycles s) = done (.absolute a) cycles s :=
  afterReads_done_implied (.absolute a) cycles s

/-- R82: the two reads at the pointer of an indirect jump. -/
theorem didRead_didRead_done_implied (pointer : Addr) (cycles : Nat) (s : State) :
    didRead (indirectHighAddr pointer) (didRead pointer (done .implied cycles s)) = done (.indirect pointer) cycles s :=
  (afterReads_afterReads _ _ _).trans (afterReads_done_implied (.indirect pointer) cycles s)

theorem runImplied_eq_done (cycles : Nat) {routine : State → State} (hr : CompletesEitherWay routine) (s : State) :
    runImplied cycles routine s = .next (routine (done .implied cycles s)) :=
  runOperand_eq_done fun _ _ => hr

theorem jumpTo_completesEitherWay (ea : Option Addr) : CompletesEitherWay (jumpTo ea) := by
  intro base crossExtra crossed extraR t
  cases ea <;> rfl

/-- R120: a branch, whatever its condition. -/
theorem runBranch_eq_branched (cond : Bool) (offset : Byte) (s : State) :
    runBranch cond offset s = .next (branched cond offset s) := by
  rw [runBranch_eq, branched, done_implied]
  cases cond with
  | false => rfl
  | true =>
    rw [branchExtra_taken, branchTarget_eq]
    rfl

end Sys2Proof.Machine
end

section
/-! PROOFS. Control flow (spec/42_control_flow.md): each instruction's whole next state and its encoding. -/

open Sys2Proof Sys2Proof.Machine Sys2Proof.Claims

/-- Settles O37: each mnemonic is the one branch, on its flag or the flag's negation. -/
theorem branchesMovePcOnTheirFlag : Obligations.BranchesMovePcOnTheirFlag := by
  unfold Obligations.BranchesMovePcOnTheirFlag
  refine ⟨fun _ => ⟨rfl, rfl, rfl, rfl, rfl, rfl, rfl, rfl⟩, fun b s => ?_⟩
  simp only [beq_true, beq_false, ← runBranch_eq_branched]
  exact ⟨rfl, rfl, rfl, rfl, rfl, rfl, rfl, rfl⟩

/-- Settles O38: both forms jump to the operand's effective address, after the reads that the operand makes. -/
theorem jumpsLoadPc : Obligations.JumpsLoadPc := by
  unfold Obligations.JumpsLoadPc
  simp only [← hiByte_eq_high, ← loByte_eq_low, ← wordOf_eq_word, ← indirectHighAddr_eq_ofNat]
  refine ⟨fun _ => ⟨rfl, rfl⟩, fun w s => ⟨?jmp, ?jmpIndirect⟩⟩
  case jmp =>
    rw [didRead_done_implied]
    exact runOperand_eq_done fun _ => jumpTo_completesEitherWay
  case jmpIndirect =>
    rw [didRead_didRead_done_implied]
    exact runOperand_eq_done fun _ => jumpTo_completesEitherWay

/-- Settles O39: JSR is a push of the word and a jump, RTS a pull of the word and one more. -/
theorem jsrPushesAndRtsPullsReturnAddress : Obligations.JsrPushesAndRtsPullsReturnAddress := by
  unfold Obligations.JsrPushesAndRtsPullsReturnAddress
  refine ⟨fun w => ?jsrBytes, rfl, fun w s => ⟨?jsr, ?rts⟩⟩
  case jsrBytes =>
    rw [← hiByte_eq_high, ← loByte_eq_low]
    rfl
  case jsr =>
    have hcompletes (ea : Option Addr) : CompletesEitherWay fun t => jumpTo ea (pushWord (t.pc - 1) t) := by
      intro base crossExtra crossed extraR t
      cases ea <;> rfl
    rw [didRead_done_implied, ← pushWord_eq_pushed]
    exact runOperand_eq_done fun _ => hcompletes
  case rts =>
    have hcompletes : CompletesEitherWay fun t => { (pullWord t).2 with pc := (pullWord t).1 + 1 } :=
      fun _ _ _ _ _ => rfl
    have hpull := pullWord_eq_pulled (done .implied 6 s)
    have hexec : exec .rts s = _ := runImplied_eq_done 6 hcompletes s
    rw [hexec, hpull]
    rfl

/-- Settles O40: BRK is trap entry on the completed state, in the pushes and reads of the statement. -/
theorem brkPushesAndVectors : Obligations.BrkPushesAndVectors := by
  unfold Obligations.BrkPushesAndVectors
  refine ⟨rfl, fun s => ?_⟩
  have hcompletes : CompletesEitherWay takeTrap := fun _ _ _ _ _ => rfl
  exact (runImplied_eq_done 7 hcompletes s).trans (congrArg _ (takeTrap_eq_pushed _))

/-- Settles O41: RTI is trap return on the completed state, in the pulls of the statement. -/
theorem rtiPullsFlagsAndPc : Obligations.RtiPullsFlagsAndPc := by
  unfold Obligations.RtiPullsFlagsAndPc
  refine ⟨rfl, fun s => ?_⟩
  have hcompletes : CompletesEitherWay returnFromTrap := fun _ _ _ _ _ => rfl
  exact (runImplied_eq_done 6 hcompletes s).trans (congrArg _ (returnFromTrap_eq_pulled _))
end

section
/-! PROOFS. The whole next state of the instruction shapes of spec/43: one write at the effective address, with the modes
that have one, and flags only; and the steps of a byte in integers. -/

namespace Sys2Proof

/-- The modes whose operand stands at an effective address: all but Implied, Accumulator, Immediate and Relative. -/
def Mode.hasAddress (m : Mode) : Bool :=
  !([.implied, .accumulator, .immediate, .relative] : List Mode).contains m

end Sys2Proof

namespace Sys2Proof.Machine

open Sys2Proof.Claims

/-- The mode of an operand alone says whether it has an effective address (R71 to R82). -/
theorem effectiveAddr_isSome (o : Operand) (s : State) : (effectiveAddr o s).isSome = o.mode.hasAddress := by
  cases o <;> rfl

/-- A mnemonic all of whose modes have an effective address has one in each of its forms. -/
theorem exists_ea_of_contains {modes : List Mode} (hmodes : ∀ m ∈ modes, m.hasAddress = true) {o : Operand}
    (ho : modes.contains o.mode = true) (s : State) : ∃ ea, (resolve o s).1.ea = some ea := by
  rw [resolve_eq]
  apply Option.isSome_iff_exists.1
  rw [effectiveAddr_isSome]
  exact hmodes _ (List.contains_iff_mem.1 ho)

theorem storeAt_completesEitherWay (ea : Option Addr) (v : Byte) : CompletesEitherWay (storeAt ea v) := by
  intro base crossExtra crossed extraR t
  cases ea <;> rfl

section
variable {o : Operand} {s : State} {ea : Addr}

/-- A routine that ends in a store writes at the address the resolver gives. -/
theorem storeAt_effectiveAddr (hea : (resolve o s).1.ea = some ea) (v : Byte) (t : State) :
    storeAt (effectiveAddr o s) v t = wrote ea v t := by
  rw [resolve_eq] at hea
  rw [show effectiveAddr o s = some ea from hea]
  rfl

/-- R153 to R155, R205: a store has no crossing extra, and writes its byte once on the completed state. -/
theorem runStore_eq_wrote (hea : (resolve o s).1.ea = some ea) (v : Byte) :
    runStore o v s = .next (wrote ea v (done o (storeCycles o.mode) s)) := by
  have hcycles : operandCycles (storeCycles o.mode, 0) o s = storeCycles o.mode := by
    rw [operandCycles, ite_self]
    rfl
  have hdone := runOperand_eq_done (base := storeCycles o.mode) (crossExtra := 0) (o := o) (s := s)
    fun _ ea => storeAt_completesEitherWay ea v
  rwa [hcycles, storeAt_effectiveAddr hea] at hdone

/-- R156, R157: rewriting the operand with the byte `result` of it, and setting N and Z from that byte. -/
theorem runModify_eq_wrote (hea : (resolve o s).1.ea = some ea) (result : Byte → Byte) :
    runModify o (fun v ea t => storeAt ea (result v) (t.setNZ (result v))) s =
      .next (wrote ea (result (operandValue o s))
        { done o (rmwCycles o.mode) s with p := nz (result (operandValue o s)) s.p }) := by
  have hcompletes (v : Byte) (ea : Option Addr) :
      CompletesEitherWay fun t => storeAt ea (result v) (t.setNZ (result v)) :=
    fun base crossExtra crossed extraR t =>
      storeAt_completesEitherWay ea (result v) base crossExtra crossed extraR (t.setNZ (result v))
  rw [runModify_eq_done hcompletes, storeAt_effectiveAddr hea, ← Flags.setNZ_eq_nz]
  rfl

end

/-! ### Flags only -/

/-- An instruction that only replaces the flags, by a function of the flags. -/
theorem runImplied_flags_eq_done (f : Flags → Flags) (s : State) :
    runImplied 2 (fun t => { t with p := f t.p }) s = .next { done .implied 2 s with p := f s.p } :=
  runImplied_eq_done 2 (fun _ _ _ _ _ => rfl) s

/-! ### Steps of a byte in integers -/

theorem add_one_eq_ofNat (v : Byte) : v + 1 = BitVec.ofNat 8 ((v.toNat + 1) % 256) := by
  bv_omega

theorem sub_one_eq_ofNat (v : Byte) : v - 1 = BitVec.ofNat 8 ((v.toNat + 255) % 256) := by
  bv_omega

end Sys2Proof.Machine
end

section
/-! PROOFS. Stack, transfers, loads, stores, increments, flags and NOP (spec/43_stack_transfer_loadstore_flags.md): each
instruction's whole next state and its encodings. -/

open Sys2Proof Sys2Proof.Machine Sys2Proof.Claims

/-- Settles O44: each instruction is one push or one pull on the completed state; the flag byte of PHP and the flags of PLP
are the model's pack and unpack. -/
theorem stackInstructionsPushAndPull : Obligations.StackInstructionsPushAndPull := by
  unfold Obligations.StackInstructionsPushAndPull
  refine ⟨rfl, rfl, rfl, rfl, fun s => ?_⟩
  simp only [← Flags.setNZ_eq_nz, ← push8_eq_pushed]
  refine ⟨?pha, ?php, ?pla, ?plp⟩
  case pha => exact runImplied_eq_done 3 (routine := fun t => push8 t.a t) (fun _ _ _ _ _ => rfl) s
  case php => exact runImplied_eq_done 3 (routine := fun t => push8 t.p.packPhp t) (fun _ _ _ _ _ => rfl) s
  case pla =>
    have hexec : exec .pla s = _ :=
      runImplied_eq_done 4 (routine := fun t => (pull8 t).2.loadA (pull8 t).1) (fun _ _ _ _ _ => rfl) s
    rw [hexec, pull8_eq_pulled]
    rfl
  case plp =>
    have hexec : exec .plp s = _ :=
      runImplied_eq_done 4 (routine := fun t => { (pull8 t).2 with p := Flags.unpack (pull8 t).1 })
        (fun _ _ _ _ _ => rfl) s
    rw [hexec, pull8_eq_pulled]
    rfl

/-- Settles O47: the encodings are the rows; each load replaces its register by the operand and sets N and Z from it. -/
theorem loadsPutOperandInRegister : Obligations.LoadsPutOperandInRegister := by
  unfold Obligations.LoadsPutOperandInRegister
  refine ⟨hasEncodings_of_row (fun _ => rfl) (fun _ => rfl) (by decide),
    hasEncodings_of_row (fun _ => rfl) (fun _ => rfl) (by decide),
    hasEncodings_of_row (fun _ => rfl) (fun _ => rfl) (by decide),
    hasEncodings_of_row (fun _ => rfl) (fun _ => rfl) (by decide), fun o s => ?_⟩
  simp only [← Flags.setNZ_eq_nz]
  refine ⟨?lda, ?ldx, ?ldy, ?lax⟩
  case lda => exact runRead_eq_done (fun v t => t.loadA v) fun _ _ _ _ _ _ => rfl
  case ldx => exact runRead_eq_done (fun v t => t.loadX v) fun _ _ _ _ _ _ => rfl
  case ldy => exact runRead_eq_done (fun v t => t.loadY v) fun _ _ _ _ _ _ => rfl
  case lax => exact runRead_eq_done (fun v t => { t.loadA v with x := v }) fun _ _ _ _ _ _ => rfl

/-- Settles O48: the encodings are the rows; the modes of each store have an effective address, and each is the one store,
of its register. -/
theorem storesWriteAtEffectiveAddress : Obligations.StoresWriteAtEffectiveAddress := by
  unfold Obligations.StoresWriteAtEffectiveAddress
  refine ⟨hasEncodings_of_row (fun _ => rfl) (fun _ => rfl) (by decide),
    hasEncodings_of_row (fun _ => rfl) (fun _ => rfl) (by decide),
    hasEncodings_of_row (fun _ => rfl) (fun _ => rfl) (by decide),
    hasEncodings_of_row (fun _ => rfl) (fun _ => rfl) (by decide), fun o s => ⟨?address, fun ea hea => ?write⟩⟩
  case address =>
    rintro (hsta | hstx | hsty | hsax)
    · exact exists_ea_of_contains (modes := staModes) (by decide) hsta s
    · exact exists_ea_of_contains (modes := stxModes) (by decide) hstx s
    · exact exists_ea_of_contains (modes := styModes) (by decide) hsty s
    · exact exists_ea_of_contains (modes := saxModes) (by decide) hsax s
  case write =>
    exact ⟨runStore_eq_wrote hea s.a, runStore_eq_wrote hea s.x, runStore_eq_wrote hea s.y,
      runStore_eq_wrote hea (s.a &&& s.x)⟩

/-- Settles O49: the encodings are the rows; the modes of INC and DEC have an effective address, and each rewrites its
operand with the next or the previous byte. -/
theorem incAndDecRewriteMemory : Obligations.IncAndDecRewriteMemory := by
  unfold Obligations.IncAndDecRewriteMemory
  refine ⟨hasEncodings_of_row (fun _ => rfl) (fun _ => rfl) (by decide),
    hasEncodings_of_row (fun _ => rfl) (fun _ => rfl) (by decide), fun o s => ⟨?address, fun ea hea => ?write⟩⟩
  case address =>
    exact fun hwf => exists_ea_of_contains (modes := incDecModes) (by decide) (or_self_iff.1 hwf) s
  case write =>
    simp only [← add_one_eq_ofNat, ← sub_one_eq_ofNat]
    exact ⟨runModify_eq_wrote hea (· + 1), runModify_eq_wrote hea (· - 1)⟩

/-- Settles O46: each transfer but TXS loads its register, and a load sets N and Z; TXS replaces SP only. -/
theorem transfersCopyRegisters : Obligations.TransfersCopyRegisters := by
  unfold Obligations.TransfersCopyRegisters
  refine ⟨rfl, rfl, rfl, rfl, rfl, rfl, fun s => ?_⟩
  simp only [← Flags.setNZ_eq_nz]
  refine ⟨?tax, ?tay, ?tsx, ?txa, ?tya, ?txs⟩
  case tax => exact runImplied_eq_done 2 (routine := fun t => t.loadX t.a) (fun _ _ _ _ _ => rfl) s
  case tay => exact runImplied_eq_done 2 (routine := fun t => t.loadY t.a) (fun _ _ _ _ _ => rfl) s
  case tsx => exact runImplied_eq_done 2 (routine := fun t => t.loadX t.sp) (fun _ _ _ _ _ => rfl) s
  case txa => exact runImplied_eq_done 2 (routine := fun t => t.loadA t.x) (fun _ _ _ _ _ => rfl) s
  case tya => exact runImplied_eq_done 2 (routine := fun t => t.loadA t.y) (fun _ _ _ _ _ => rfl) s
  case txs => exact runImplied_eq_done 2 (routine := fun t => { t with sp := t.x }) (fun _ _ _ _ _ => rfl) s

/-- Settles O50: each loads its register with the next or the previous byte. -/
theorem registerIncrementsWrap : Obligations.RegisterIncrementsWrap := by
  unfold Obligations.RegisterIncrementsWrap
  refine ⟨rfl, rfl, rfl, rfl, fun s => ?_⟩
  simp only [← Flags.setNZ_eq_nz, ← add_one_eq_ofNat, ← sub_one_eq_ofNat]
  refine ⟨?inx, ?iny, ?dex, ?dey⟩
  case inx => exact runImplied_eq_done 2 (routine := fun t => t.loadX (t.x + 1)) (fun _ _ _ _ _ => rfl) s
  case iny => exact runImplied_eq_done 2 (routine := fun t => t.loadY (t.y + 1)) (fun _ _ _ _ _ => rfl) s
  case dex => exact runImplied_eq_done 2 (routine := fun t => t.loadX (t.x - 1)) (fun _ _ _ _ _ => rfl) s
  case dey => exact runImplied_eq_done 2 (routine := fun t => t.loadY (t.y - 1)) (fun _ _ _ _ _ => rfl) s

/-- Settles O51: each instruction replaces the flags, by the flags with its one flag set or cleared. -/
theorem flagInstructionsWriteOneFlag : Obligations.FlagInstructionsWriteOneFlag := by
  unfold Obligations.FlagInstructionsWriteOneFlag
  refine ⟨rfl, rfl, rfl, rfl, rfl, rfl, rfl, fun s => ⟨?clc, ?cld, ?cli, ?clv, ?sec, ?sed, ?sei⟩⟩
  case clc => exact runImplied_flags_eq_done (fun p => { p with c := false }) s
  case cld => exact runImplied_flags_eq_done (fun p => { p with d := false }) s
  case cli => exact runImplied_flags_eq_done (fun p => { p with i := false }) s
  case clv => exact runImplied_flags_eq_done (fun p => { p with v := false }) s
  case sec => exact runImplied_flags_eq_done (fun p => { p with c := true }) s
  case sed => exact runImplied_flags_eq_done (fun p => { p with d := true }) s
  case sei => exact runImplied_flags_eq_done (fun p => { p with i := true }) s

/-- Settles O52: the bytes are the families of each mode; every NOP's routine leaves the state as the operand reads left
it. -/
theorem nopsChangeNothing : Obligations.NopsChangeNothing := by
  unfold Obligations.NopsChangeNothing
  refine ⟨rfl, fun op => ⟨List.contains_iff_mem, rfl⟩, fun op o => ⟨?twoByte, rfl⟩, fun op o => ⟨?threeByte, rfl⟩,
    fun op o s => ⟨?nop, ?nopOneByte, ?nopTwoByte, ?nopThreeByte⟩⟩
  case twoByte =>
    rw [Instr.wf, List.contains_iff_mem]
    cases o.mode <;> simp [nopTwoByteOpcodes]
  case threeByte =>
    rw [Instr.wf, List.contains_iff_mem]
    cases o.mode <;> simp [nopThreeByteOpcodes]
  case nop | nopOneByte => exact runImplied_eq_done 2 (routine := fun t => t) (fun _ _ _ _ _ => rfl) s
  case nopTwoByte | nopThreeByte => exact runRead_eq_done (fun _ t => t) fun _ _ _ _ _ _ => rfl
end

section
/-! PROOFS. The whole next state of the instruction shapes of spec/44: a byte rewritten and then worked on, and an
instruction of one byte that runs from its opcode fetch alone. -/

namespace Sys2Proof.Machine

open Sys2Proof.Claims

section
variable {o : Operand} {s : State} {ea : Addr}

/-- R200: rewriting the operand with the byte `result` of it and the old carry, on the state that `before` leaves, and then
working with the operand and the new byte. -/
theorem runModify_eq_rewrite_then (hea : (resolve o s).1.ea = some ea) (result : Byte → Bool → Byte)
    {before : Byte → State → State} {work : Byte → Byte → State → State} (hbefore : ∀ v, CompletesEitherWay (before v))
    (hwork : ∀ v r, CompletesEitherWay (work v r)) :
    runModify o (fun v ea t => work v (result v t.p.c) (storeAt ea (result v t.p.c) (before v t))) s =
      let v := operandValue o s
      let r := result v s.p.c
      .next (work v r (wrote ea r (before v (done o (rmwCycles o.mode) s)))) := by
  have hcompletes (v : Byte) (ea : Option Addr) :
      CompletesEitherWay fun t => work v (result v t.p.c) (storeAt ea (result v t.p.c) (before v t)) := by
    intro base crossExtra crossed extraR t
    rw [hwork, storeAt_completesEitherWay, hbefore]
    rfl
  rw [runModify_eq_done hcompletes, storeAt_effectiveAddr hea]
  rfl

/-- R201 to R203: a shift of the operand in memory, the bit `carry` of the operand into C, then A combined with the new
byte. -/
theorem runModify_eq_shift_then_load (hea : (resolve o s).1.ea = some ea) (result : Byte → Bool → Byte)
    (carry : Byte → Bool) (combine : Byte → Byte → Byte) :
    runModify o (fun v ea t =>
        let u := storeAt ea (result v t.p.c) (t.setC (carry v))
        u.loadA (combine u.a (result v t.p.c))) s =
      let v := operandValue o s
      let r := result v s.p.c
      .next { wrote ea r (done o (rmwCycles o.mode) s) with
        a := combine s.a r, p := { nz (combine s.a r) s.p with c := carry v } } := by
  simp only [← Flags.setNZ_eq_nz]
  exact runModify_eq_rewrite_then hea result (before := fun v t => t.setC (carry v))
    (work := fun _ r u => u.loadA (combine u.a r)) (fun _ _ _ _ _ _ => rfl) fun _ _ _ _ _ _ _ => rfl

end

/-- The difference modulo 256 as the statement of R214 writes it. -/
theorem sub_eq_ofInt (r m : Byte) : r - m = BitVec.ofInt 8 ((r.toNat : Int) - m.toNat) := by
  apply BitVec.eq_of_toNat_eq
  rw [BitVec.toNat_ofInt, BitVec.toNat_sub]
  omega

/-- R34, R84: the fetch of an instruction of one byte reads its opcode and nothing more. -/
theorem fetchInstr_of_oneByte {s : State} (h : opcodeLength (s.answer 0 s.pc) = 1) :
    fetchInstr s = (decodeBytes (s.answer 0 s.pc) 0 0, fetched 1 s) := by
  have hfetch (t : State) : fetchOperands (s.answer 0 s.pc) t = (decodeBytes (s.answer 0 s.pc) 0 0, t) := by
    simp only [fetchOperands, h]
  exact hfetch _

/-- While Running, a step at a byte that is the instruction `i` by itself executes `i`, its opcode fetched. -/
theorem step_of_oneByte {s : State} {i : Instr} (hrun : s.run = .running)
    (hi : opcodeLength (s.answer 0 s.pc) = 1 ∧ decodeBytes (s.answer 0 s.pc) 0 0 = i) :
    step s = exec i (fetched 1 s) := by
  obtain ⟨hlength, hdecode⟩ := hi
  simp only [step, hrun, fetchInstr_of_oneByte hlength, hdecode]

/-- R220: the matrix has KIL, by itself, at its twelve bytes. -/
theorem decodeBytes_of_kil : ∀ op ∈ kilOpcodes, opcodeLength op = 1 ∧ decodeBytes op 0 0 = .kil op := by
  decide

/-- R55, R221: the matrix has no instruction at the five invalid bytes, and takes no operand byte there. -/
theorem decodeBytes_of_invalid : ∀ op ∈ invalidOpcodes, opcodeLength op = 1 ∧ decodeBytes op 0 0 = .invalid op := by
  decide

end Sys2Proof.Machine
end

section
/-! PROOFS. The undocumented instructions, KIL and the invalid opcodes (spec/44_illegal.md): each instruction's whole next state
and its encodings. -/

open Sys2Proof Sys2Proof.Machine Sys2Proof.Claims

/-- Settles O53: the encodings are the rows; the modes have an effective address; SLO, RLA and SRE are a shift in memory and a
load of A, and RRA, DCP and ISC rewrite the operand and then add, compare or subtract the new byte. -/
theorem modifyCombinationsRewriteThenOperate : Obligations.ModifyCombinationsRewriteThenOperate := by
  unfold Obligations.ModifyCombinationsRewriteThenOperate
  refine ⟨⟨hasEncodings_of_row (fun _ => rfl) (fun _ => rfl) (by decide),
    hasEncodings_of_row (fun _ => rfl) (fun _ => rfl) (by decide),
    hasEncodings_of_row (fun _ => rfl) (fun _ => rfl) (by decide),
    hasEncodings_of_row (fun _ => rfl) (fun _ => rfl) (by decide),
    hasEncodings_of_row (fun _ => rfl) (fun _ => rfl) (by decide),
    hasEncodings_of_row (fun _ => rfl) (fun _ => rfl) (by decide)⟩, fun o s => ⟨?address, fun ea hea => ?write⟩⟩
  case address => exact fun hwf => exists_ea_of_contains (modes := rmwComboModes) (by decide) hwf s
  case write =>
    simp only [← getLsbD_seven_eq_topBit, ← getLsbD_zero_eq_lowBit, ← add_one_eq_ofNat, ← sub_one_eq_ofNat,
      ← State.addToA_eq_added, ← State.addToA_complement_eq_subtracted, ← Flags.compare_eq_compared]
    refine ⟨?slo, ?rla, ?sre, ?rra, ?dcp, ?isc⟩
    case slo =>
      rw [← shiftLeft_one_eq_shiftedLeft]
      exact runModify_eq_shift_then_load hea (fun v _ => v <<< 1) (fun v => v.getLsbD 7) (· ||| ·)
    case rla =>
      rw [← rolByte_eq_shiftedLeft]
      exact runModify_eq_shift_then_load hea rolByte (fun v => v.getLsbD 7) (· &&& ·)
    case sre =>
      rw [← shiftRight_one_eq_shiftedRight]
      exact runModify_eq_shift_then_load hea (fun v _ => v >>> 1) (fun v => v.getLsbD 0) (· ^^^ ·)
    case rra =>
      rw [← rorByte_eq_shiftedRight]
      exact runModify_eq_rewrite_then hea rorByte (before := fun _ t => t)
        (work := fun v r u => u.addToA r (v.getLsbD 0)) (fun _ _ _ _ _ _ => rfl) fun _ _ _ _ _ _ _ => rfl
    case dcp =>
      exact runModify_eq_rewrite_then hea (fun v _ => v - 1) (before := fun _ t => t)
        (work := fun _ r u => u.compare u.a r) (fun _ _ _ _ _ _ => rfl) fun _ _ _ _ _ _ _ => rfl
    case isc =>
      exact runModify_eq_rewrite_then hea (fun v _ => v + 1) (before := fun _ t => t)
        (work := fun _ r u => u.addToA (r ^^^ 0xFF) u.p.c) (fun _ _ _ _ _ _ => rfl) fun _ _ _ _ _ _ _ => rfl

/-- Settles O55: each instruction is a read of its immediate operand, whose routine makes the result and the flags of the
statement; none of them looks at D. -/
theorem immediateCombinationsComputeResultAndFlags : Obligations.ImmediateCombinationsComputeResultAndFlags := by
  unfold Obligations.ImmediateCombinationsComputeResultAndFlags
  refine ⟨fun op v => ⟨?ancBytes, rfl, rfl, rfl, rfl⟩, fun op v s => ?_⟩
  case ancBytes =>
    rw [Instr.wf, List.contains_iff_mem]
    simp [ancOpcodes]
  simp only [← Flags.setNZ_eq_nz, ← getLsbD_seven_eq_topBit, ← getLsbD_zero_eq_lowBit, ← sub_eq_ofInt]
  refine ⟨?anc, ?alr, ?arr, ?axs⟩
  case anc =>
    exact runRead_eq_done (fun v t => (t.loadA (t.a &&& v)).setC ((t.a &&& v).getLsbD 7)) fun _ _ _ _ _ _ => rfl
  case alr =>
    rw [← shiftRight_one_eq_shiftedRight]
    exact runRead_eq_done (fun v t => (t.setC ((t.a &&& v).getLsbD 0)).loadA ((t.a &&& v) >>> 1))
      fun _ _ _ _ _ _ => rfl
  case arr =>
    rw [← rorByte_eq_shiftedRight]
    exact runRead_eq_done (fun v t =>
      { t with a := rorByte (t.a &&& v) t.p.c, p := t.p.arr (rorByte (t.a &&& v) t.p.c) }) fun _ _ _ _ _ _ => rfl
  case axs =>
    exact runRead_eq_done (fun v t => (t.setC (decide (v.toNat ≤ (t.a &&& t.x).toNat))).loadX ((t.a &&& t.x) - v))
      fun _ _ _ _ _ _ => rfl

/-- Settles O56: each instruction loads the combination with its constant, which the proof never looks into. -/
theorem magicInstructionsUseTheOpenConstants : Obligations.MagicInstructionsUseTheOpenConstants := by
  unfold Obligations.MagicInstructionsUseTheOpenConstants
  refine ⟨fun _ => ⟨rfl, rfl⟩, fun v s => ?_⟩
  simp only [← Flags.setNZ_eq_nz]
  refine ⟨?laxImmediate, ?xaa⟩
  case laxImmediate =>
    exact runRead_eq_done (fun v t =>
      { t.loadA ((t.a ||| Config.laxMagic) &&& v) with x := (t.a ||| Config.laxMagic) &&& v }) fun _ _ _ _ _ _ => rfl
  case xaa =>
    exact runRead_eq_done (fun v t => t.loadA ((t.a ||| Config.xaaMagic) &&& t.x &&& v)) fun _ _ _ _ _ _ => rfl

/-- Settles O57: LAS is a read instruction that loads A, X and SP with one byte. -/
theorem lasLoadsThreeRegisters : Obligations.LasLoadsThreeRegisters := by
  unfold Obligations.LasLoadsThreeRegisters
  simp only [← hiByte_eq_high, ← loByte_eq_low, ← Flags.setNZ_eq_nz]
  exact ⟨fun _ => rfl, fun w s =>
    runRead_eq_done (fun v t => { t.loadA (v &&& t.sp) with x := v &&& t.sp, sp := v &&& t.sp }) fun _ _ _ _ _ _ => rfl⟩

/-- Settles O58: the bytes are the family's; the step halts the state of the opcode fetch, and a halted state idles. -/
theorem kilHalts : Obligations.KilHalts := by
  unfold Obligations.KilHalts
  refine ⟨fun op => ⟨List.contains_iff_mem, rfl⟩, fun op s => ⟨rfl, fun hrun hop hwf => ?step⟩⟩
  subst hop
  have hstep : step s = .next (haltCore (fetched 1 s)) :=
    step_of_oneByte hrun (decodeBytes_of_kil _ (List.contains_iff_mem.1 hwf))
  exact ⟨_, hstep, rfl, rfl, rfl, rfl, rfl, rfl, rfl, _, step_of_halted rfl, rfl⟩

/-- Settles O59: the bytes are the family's; the step raises the fault on the state of the opcode fetch, whose PC is one past
the opcode. -/
theorem invalidOpcodeFaults : Obligations.InvalidOpcodeFaults := by
  unfold Obligations.InvalidOpcodeFaults
  refine ⟨fun op => ⟨List.contains_iff_mem, rfl⟩, fun op s => ⟨rfl, fun hrun hop hwf => ?step⟩⟩
  subst hop
  have haddress : (fetched 1 s).pc - 1 = s.pc := BitVec.add_sub_cancel _ _
  have hstep : step s = .next (raiseInvalidOpcode (s.answer 0 s.pc) ((fetched 1 s).pc - 1) (fetched 1 s)) :=
    step_of_oneByte hrun (decodeBytes_of_invalid _ (List.contains_iff_mem.1 hwf))
  rw [haddress] at hstep
  exact ⟨_, hstep, rfl, rfl, rfl, rfl, rfl, rfl, rfl⟩
end

section
/-! PROOFS. The decoder against the encoder (R50 to R56): what the matrix has at each byte, and decoding as the building of a
cell from the bytes read. -/

namespace Sys2Proof

open Sys2Proof.Machine Sys2Proof.Claims

/-! ### The bytes of an operand -/

theorem loByte_wordOf (h l : Byte) : loByte (wordOf h l) = l := by
  apply BitVec.eq_of_toNat_eq
  have hl := l.isLt
  rw [wordOf_eq_word, loByte_eq_low, low, word, BitVec.toNat_ofNat, BitVec.toNat_ofNat]
  omega

theorem hiByte_wordOf (h l : Byte) : hiByte (wordOf h l) = h := by
  apply BitVec.eq_of_toNat_eq
  have hh := h.isLt
  have hl := l.isLt
  rw [hiByte_toNat, wordOf_eq_word, word, BitVec.toNat_ofNat]
  omega

/-- R51: the operand a mode assembles from two bytes has the first of them, the first two, or none, as the mode is long. -/
theorem bytes_assemble (m : Mode) (b1 b2 : Byte) : (m.assemble b1 b2).bytes = [b1, b2].take (m.length - 1) := by
  cases m <;> simp [Mode.assemble, Operand.bytes, Mode.length, loByte_wordOf, hiByte_wordOf]

/-! ### Decoding builds the cell of the opcode -/

/-- A cell does not look at bytes past its length. -/
theorem Entry.build_of_length_one {e : Entry} (h : e.length = 1) (b1 b2 : Byte) : e.build b1 b2 = e.build 0 0 := by
  cases e with
  | one => rfl
  | byte => cases h
  | word => cases h
  | operand m =>
    cases m
    case implied | accumulator => rfl
    all_goals cases h

theorem Entry.build_of_length_two {e : Entry} (h : e.length = 2) (b1 b2 : Byte) : e.build b1 b2 = e.build b1 0 := by
  cases e with
  | one => cases h
  | byte => rfl
  | word => cases h
  | operand m =>
    cases m
    case immediate | zeroPage | zeroPageX | zeroPageY | indirectX | indirectY | relative => rfl
    all_goals cases h

/-- R50, R52: the decoder is total on an opcode byte with two bytes after it, and leaves what is past the instruction. -/
theorem decode_cons (op b1 b2 : Byte) (rest : List Byte) :
    decode (op :: b1 :: b2 :: rest) =
      .ok (decodeBytes op b1 b2, (op :: b1 :: b2 :: rest).drop (opcodeLength op)) := by
  obtain h | h | h := opcodeLength_cases op
  · have hbuild : decodeBytes op b1 b2 = decodeBytes op 0 0 := Entry.build_of_length_one h b1 b2
    simp only [decode, h, hbuild]
    rfl
  · have hbuild : decodeBytes op b1 b2 = decodeBytes op b1 0 := Entry.build_of_length_two h b1 b2
    simp only [decode, h, hbuild]
    rfl
  · simp only [decode, h]
    rfl

/-! ### From bytes to instruction and back -/

/-- The 256 cells of the matrix (R53 to R56): at each opcode byte stands a well-formed instruction as long as its mode, which
takes the operand that its mode assembles, and which the encoder encodes by that byte and its operand's bytes. -/
theorem decodeBytes_facts (op b1 b2 : Byte) :
    let i := decodeBytes op b1 b2
    i.wf = true ∧ opcodeLength op = i.operand.mode.length ∧ i.operand = i.operand.mode.assemble b1 b2 ∧
      encode i = op :: i.operand.bytes := by
  obtain ⟨⟨k, hk⟩⟩ := op
  interval_cases k <;> exact ⟨rfl, rfl, rfl, rfl⟩

theorem decodeBytes_wf (op b1 b2 : Byte) : (decodeBytes op b1 b2).wf = true :=
  (decodeBytes_facts op b1 b2).1

theorem opcodeLength_eq (op b1 b2 : Byte) : opcodeLength op = (decodeBytes op b1 b2).operand.mode.length :=
  (decodeBytes_facts op b1 b2).2.1

/-- The encoding of a decoded instruction is the bytes it was decoded from. -/
theorem encode_decodeBytes (op b1 b2 : Byte) : encode (decodeBytes op b1 b2) = [op, b1, b2].take (opcodeLength op) := by
  obtain ⟨-, hlength, hoperand, hencode⟩ := decodeBytes_facts op b1 b2
  rw [hencode, hoperand, bytes_assemble, hlength]
  cases (decodeBytes op b1 b2).operand.mode <;> rfl

/-! ### From instruction to bytes and back -/

/-- A cell with an operand of the mode of `o` decodes the bytes of `o` to `o`. -/
theorem decode_operand_bytes {op : Byte} {o : Operand} {mk : Operand → Instr}
    (h : entryOf op = .operand o.mode mk) (rest : List Byte) : decode (op :: o.bytes ++ rest) = .ok (mk o, rest) := by
  have hword (w : Addr) : wordOf (hiByte w) (loByte w) = w := wordOf_hiByte_loByte w
  cases o <;>
    simp [decode, opcodeLength, decodeBytes, h, Operand.mode, Operand.bytes, Entry.length, Entry.build, Mode.length,
      Mode.assemble, hword]

/-- A mnemonic whose row the matrix has, each byte with its mode, decodes from each of its encodings. -/
theorem decode_encode_of_row {mk : Operand → Instr} {row : MnemonicRow} {o : Operand}
    (hencode : ∀ o, encode (mk o) = encodeRow row o) (hwf : ∀ o, (mk o).wf = (row.map Prod.fst).contains o.mode)
    (hmatrix : row.map (fun cell => entryOf cell.2) = row.map (fun cell => .operand cell.1 mk))
    (hrow : ∀ cell ∈ row, row.lookup cell.1 = some cell.2) (ho : (mk o).wf = true) (rest : List Byte) :
    decode (encode (mk o) ++ rest) = .ok (mk o, rest) := by
  obtain ⟨hmodes, hbytes⟩ := hasEncodings_of_row hwf hencode hrow o
  obtain ⟨⟨m, op⟩, hcell, hm⟩ := List.mem_map.1 (hmodes.1 ho)
  have hentry : entryOf op = .operand m mk := List.map_inj_left.1 hmatrix _ hcell
  rw [show m = o.mode from hm] at hcell hentry
  rw [hbytes op hcell, decode_operand_bytes hentry]

/-- A byte of the family of a mode that the matrix has as an instruction of that mode decodes with its operand. -/
theorem decode_of_family {family : List Byte} {mk : Byte → Operand → Instr} {op : Byte} {o : Operand}
    (hmatrix : family.map entryOf = family.map (fun op => .operand o.mode (mk op))) (hop : family.contains op = true)
    (rest : List Byte) : decode (op :: o.bytes ++ rest) = .ok (mk op o, rest) :=
  decode_operand_bytes (List.map_inj_left.1 hmatrix _ (List.contains_iff_mem.1 hop)) rest

theorem entryOf_nopTwoByte (m : Mode) :
    (nopTwoByteOpcodes m).map entryOf = (nopTwoByteOpcodes m).map (fun op => .operand m (.nopTwoByte op)) := by
  cases m <;> rfl

theorem entryOf_nopThreeByte (m : Mode) :
    (nopThreeByteOpcodes m).map entryOf = (nopThreeByteOpcodes m).map (fun op => .operand m (.nopThreeByte op)) := by
  cases m <;> rfl

/-- A byte that is an instruction by itself decodes to it, whatever follows. -/
theorem decode_of_oneByte {op : Byte} {i : Instr} (h : opcodeLength op = 1 ∧ decodeBytes op 0 0 = i)
    (rest : List Byte) : decode ([op] ++ rest) = .ok (i, rest) := by
  obtain ⟨hlength, rfl⟩ := h
  simp only [List.cons_append, List.nil_append, decode, hlength]

/-- R217: the matrix has NOP, by itself, at its six undocumented bytes. -/
theorem decodeBytes_of_nopOneByte :
    ∀ op ∈ nopOneByteOpcodes, opcodeLength op = 1 ∧ decodeBytes op 0 0 = .nopOneByte op := by
  decide

/-- R210: the matrix has ANC at both of its bytes. -/
theorem entryOf_anc : ancOpcodes.map entryOf = ancOpcodes.map (fun op => .byte (.anc op)) := rfl

/-- R50 to R56: decoding undoes encoding. A mnemonic with modes decodes through its row, an opcode argument through its
family, and every other instruction is one cell. -/
theorem decode_encode {i : Instr} (h : i.wf = true) (rest : List Byte) : decode (encode i ++ rest) = .ok (i, rest) := by
  have hword (w : Addr) : wordOf (hiByte w) (loByte w) = w := wordOf_hiByte_loByte w
  cases i
  case adc | sbc | and | eor | ora | asl | lsr | rol | ror | bit | cmp | cpx | cpy | lda | ldx | ldy | sta | stx | sty
      | inc | dec | slo | rla | sre | rra | sax | lax | dcp | isc =>
    exact decode_encode_of_row (fun _ => rfl) (fun _ => rfl) rfl (by decide) h rest
  case nopTwoByte op o => exact decode_of_family (entryOf_nopTwoByte o.mode) h rest
  case nopThreeByte op o => exact decode_of_family (entryOf_nopThreeByte o.mode) h rest
  case nopOneByte => exact decode_of_oneByte (decodeBytes_of_nopOneByte _ (List.contains_iff_mem.1 h)) rest
  case kil => exact decode_of_oneByte (decodeBytes_of_kil _ (List.contains_iff_mem.1 h)) rest
  case invalid => exact decode_of_oneByte (decodeBytes_of_invalid _ (List.contains_iff_mem.1 h)) rest
  case anc op value =>
    have hentry : entryOf op = .byte (.anc op) := List.map_inj_left.1 entryOf_anc _ (List.contains_iff_mem.1 h)
    simp [encode, decode, opcodeLength, decodeBytes, hentry, Entry.length, Entry.build]
  case jmp w => exact congrArg (fun v => Except.ok (Instr.jmp v, rest)) (hword w)
  case jmpIndirect w => exact congrArg (fun v => Except.ok (Instr.jmpIndirect v, rest)) (hword w)
  case jsr w => exact congrArg (fun v => Except.ok (Instr.jsr v, rest)) (hword w)
  case las w => exact congrArg (fun v => Except.ok (Instr.las v, rest)) (hword w)
  all_goals rfl

end Sys2Proof

open Sys2Proof

/-- Settles O3: a mnemonic with modes decodes through its row of the encoder, every other instruction through its cell. -/
theorem decodeOfEncodeIsIdentity : Obligations.DecodeOfEncodeIsIdentity := by
  unfold Obligations.DecodeOfEncodeIsIdentity
  exact fun _ rest hwf => decode_encode hwf rest

/-- Settles O4: decoding builds the opcode's cell, and each of the 256 cells encodes back. -/
theorem everyBytesDecodeAndEncodeBack : Obligations.EveryBytesDecodeAndEncodeBack := by
  unfold Obligations.EveryBytesDecodeAndEncodeBack
  intro op b1 b2 rest
  refine ⟨decodeBytes op b1 b2, opcodeLength op, decode_cons op b1 b2 rest, decodeBytes_wf op b1 b2,
    opcodeLength_eq op b1 b2, ?_⟩
  rw [encode_decodeBytes]
  obtain h | h | h := opcodeLength_cases op <;> rw [h] <;> rfl

/-- Settles O2: each word is one cell of the matrix, looked up by its first byte. -/
theorem specWordsDecodeToTheirInstruction : Obligations.SpecWordsDecodeToTheirInstruction := by
  unfold Obligations.SpecWordsDecodeToTheirInstruction
  refine ⟨?ldaImmediate, ?adcImmediate, ?jmp, ?jmpIndirect, ?bne, ?staAbsoluteX, ?ldxZeroPageY, ?aslAccumulator,
    ?iscAbsoluteX, ?iscAbsoluteY, ?anc, ?invalid⟩ <;> rfl
end

section
/-! PROOFS. Execution, once, as one equation for every instruction (R84, R85): the operand's reads, the instruction's routine on
the value and the address they give, and the outputs of its end. -/

namespace Sys2Proof.Machine

/-- What the routine of an instruction does, given the value and the effective address of its operand, in the state with the
operand's reads recorded (R84), the pulls and the trap written out. KIL and the invalid bytes have none. -/
def routine (i : Instr) (v : Byte) (ea : Option Addr) (t : State) : State :=
  match i with
  | .adc _ => t.addToA v t.p.c
  | .sbc _ | .sbcEB _ => t.addToA (v ^^^ 0xFF) t.p.c
  | .and _ => t.loadA (t.a &&& v)
  | .eor _ => t.loadA (t.a ^^^ v)
  | .ora _ => t.loadA (t.a ||| v)
  | .asl _ => writeBack ea (v <<< 1) ((t.setC (v.getLsbD 7)).setNZ (v <<< 1))
  | .lsr _ => writeBack ea (v >>> 1) ((t.setC (v.getLsbD 0)).setNZ (v >>> 1))
  | .rol _ => writeBack ea (rolByte v t.p.c) ((t.setC (v.getLsbD 7)).setNZ (rolByte v t.p.c))
  | .ror _ => writeBack ea (rorByte v t.p.c) ((t.setC (v.getLsbD 0)).setNZ (rorByte v t.p.c))
  | .bit _ => { t with p := t.p.bitTest t.a v }
  | .cmp _ => t.compare t.a v
  | .cpx _ => t.compare t.x v
  | .cpy _ => t.compare t.y v
  | .bcc _ | .bcs _ | .beq _ | .bne _ | .bmi _ | .bpl _ | .bvc _ | .bvs _ =>
    { t with pc := if branchTaken i t.p then t.pc + sext16 v else t.pc }
  | .jmp _ | .jmpIndirect _ => jumpTo ea t
  | .jsr _ => jumpTo ea (pushWord (t.pc - 1) t)
  | .rts =>
    { t.afterReads [stackAddr (t.sp + 1), stackAddr (t.sp + 2)] with
      sp := t.sp + 2
      pc := t.word (stackAddr (t.sp + 1)) (stackAddr (t.sp + 2)) + 1 }
  | .brk =>
    { (trapSaved t).afterReads [Config.brkVector, Config.brkVector + 1] with
      pc := (trapSaved t).word Config.brkVector (Config.brkVector + 1) }
  | .rti =>
    { t.afterReads [stackAddr (t.sp + 1), stackAddr (t.sp + 2), stackAddr (t.sp + 3)] with
      sp := t.sp + 3
      p := Flags.unpack (t.answer 0 (stackAddr (t.sp + 1)))
      pc := wordOf (t.answer 2 (stackAddr (t.sp + 3))) (t.answer 1 (stackAddr (t.sp + 2))) }
  | .pha => push8 t.a t
  | .pla => (pull8 t).2.loadA (pull8 t).1
  | .php => push8 t.p.packPhp t
  | .plp => { (pull8 t).2 with p := Flags.unpack (pull8 t).1 }
  | .tax => t.loadX t.a
  | .tay => t.loadY t.a
  | .tsx => t.loadX t.sp
  | .txa => t.loadA t.x
  | .tya => t.loadA t.y
  | .txs => { t with sp := t.x }
  | .lda _ => t.loadA v
  | .ldx _ => t.loadX v
  | .ldy _ => t.loadY v
  | .sta _ => storeAt ea t.a t
  | .stx _ => storeAt ea t.x t
  | .sty _ => storeAt ea t.y t
  | .inc _ => storeAt ea (v + 1) (t.setNZ (v + 1))
  | .dec _ => storeAt ea (v - 1) (t.setNZ (v - 1))
  | .inx => t.loadX (t.x + 1)
  | .iny => t.loadY (t.y + 1)
  | .dex => t.loadX (t.x - 1)
  | .dey => t.loadY (t.y - 1)
  | .clc => t.setC false
  | .cld => { t with p := { t.p with d := false } }
  | .cli => { t with p := { t.p with i := false } }
  | .clv => { t with p := { t.p with v := false } }
  | .sec => t.setC true
  | .sed => { t with p := { t.p with d := true } }
  | .sei => { t with p := { t.p with i := true } }
  | .slo _ =>
    let u := storeAt ea (v <<< 1) (t.setC (v.getLsbD 7))
    u.loadA (u.a ||| v <<< 1)
  | .rla _ =>
    let u := storeAt ea (rolByte v t.p.c) (t.setC (v.getLsbD 7))
    u.loadA (u.a &&& rolByte v t.p.c)
  | .sre _ =>
    let u := storeAt ea (v >>> 1) (t.setC (v.getLsbD 0))
    u.loadA (u.a ^^^ v >>> 1)
  | .rra _ => (storeAt ea (rorByte v t.p.c) t).addToA (rorByte v t.p.c) (v.getLsbD 0)
  | .sax _ => storeAt ea (t.a &&& t.x) t
  | .lax _ => { t.loadA v with x := v }
  | .laxImmediate _ => { t.loadA ((t.a ||| Config.laxMagic) &&& v) with x := (t.a ||| Config.laxMagic) &&& v }
  | .dcp _ =>
    let u := storeAt ea (v - 1) t
    u.compare u.a (v - 1)
  | .isc _ =>
    let u := storeAt ea (v + 1) t
    u.addToA ((v + 1) ^^^ 0xFF) u.p.c
  | .anc _ _ => (t.loadA (t.a &&& v)).setC ((t.a &&& v).getLsbD 7)
  | .alr _ => (t.setC ((t.a &&& v).getLsbD 0)).loadA ((t.a &&& v) >>> 1)
  | .arr _ => { t with a := rorByte (t.a &&& v) t.p.c, p := t.p.arr (rorByte (t.a &&& v) t.p.c) }
  | .xaa _ => t.loadA ((t.a ||| Config.xaaMagic) &&& t.x &&& v)
  | .axs _ => (t.setC (decide (v.toNat ≤ (t.a &&& t.x).toNat))).loadX ((t.a &&& t.x) - v)
  | .las _ => { t.loadA (v &&& t.sp) with x := v &&& t.sp, sp := v &&& t.sp }
  | .nop | .nopOneByte _ | .nopTwoByte _ _ | .nopThreeByte _ _ | .kil _ | .invalid _ => t

/-- The state after the routine of an instruction executed in `s`. -/
def afterRoutine (i : Instr) (s : State) : State :=
  routine i (operandValue i.operand s) (effectiveAddr i.operand s) (s.afterReads (operandReadAddrs i.operand s))

/-- The end of an instruction executed in `s` whose routine left `t`: KIL halts, an invalid byte faults, every other one
completes with its cycles (R85, R220, R221). -/
def finish (i : Instr) (s t : State) : State :=
  match i with
  | .kil _ => haltCore t
  | .invalid opcode => raiseInvalidOpcode opcode (t.pc - 1) t
  | _ => t.complete (instrCounts i).1 (instrCounts i).2 (pageCrossed i.operand s) (ownExtra i s)

/-- The next state of an instruction executed in `s`. -/
def nextState (i : Instr) (s : State) : State := finish i s (afterRoutine i s)

/-! ### The instruction shapes, with the operand's reads told first -/

theorem runRead_eq (o : Operand) (f : Byte → State → State) (s : State) :
    runRead o f s =
      .next ((f (operandValue o s) (s.afterReads (operandReadAddrs o s))).complete (readCycles o.mode)
        (readCrossExtra o.mode) (pageCrossed o s) 0) :=
  runOperand_eq _ _ _ _ _

theorem runStore_eq (o : Operand) (v : Byte) (s : State) :
    runStore o v s =
      .next ((storeAt (effectiveAddr o s) v (s.afterReads (operandReadAddrs o s))).complete (storeCycles o.mode) 0
        (pageCrossed o s) 0) :=
  runOperand_eq _ _ _ _ _

theorem runModify_eq (o : Operand) (f : Byte → Option Addr → State → State) (s : State) :
    runModify o f s =
      .next ((f (operandValue o s) (effectiveAddr o s) (s.afterReads (operandReadAddrs o s))).complete
        (rmwCycles o.mode) 0 (pageCrossed o s) 0) :=
  runOperand_eq _ _ _ _ _

theorem runBranch_eq_complete (cond : Bool) (offset : Byte) (s : State) :
    runBranch cond offset s =
      .next ({ s with pc := if cond then s.pc + sext16 offset else s.pc }.complete 2 0 false
        (branchExtra cond s.pc offset)) := by
  rw [runBranch_eq]
  cases cond with
  | false => rfl
  | true =>
    rw [branchExtra_taken]
    rfl

theorem afterRoutine_of_no_reads {i : Instr} {s : State} (h : operandReadAddrs i.operand s = []) :
    afterRoutine i s = routine i (operandValue i.operand s) (effectiveAddr i.operand s) s := by
  rw [afterRoutine, h, afterReads_nil]

/-- Every instruction answers its next state. -/
theorem exec_eq (i : Instr) (s : State) : exec i s = .next (nextState i s) := by
  cases i <;> dsimp only [exec]
  case bcc | bcs | beq | bne | bmi | bpl | bvc | bvs =>
    refine (runBranch_eq_complete _ _ s).trans ?_
    rw [nextState, afterRoutine_of_no_reads rfl]
    rfl
  case kil | invalid =>
    rw [nextState, afterRoutine_of_no_reads rfl]
    rfl
  all_goals
    dsimp only [nextState, finish]
    rw [ownExtra_of_never_taken fun _ => rfl]
  case adc | sbc | and | eor | ora | bit | cmp | cpx | cpy | lda | ldx | ldy | lax | laxImmediate | anc | alr | arr
      | xaa | axs | sbcEB | las | nopTwoByte | nopThreeByte =>
    exact runRead_eq _ _ s
  case sta | stx | sty | sax => exact runStore_eq _ _ s
  case asl | lsr | rol | ror | inc | dec | slo | rla | sre | rra | dcp | isc => exact runModify_eq _ _ s
  case jmp | jmpIndirect | jsr => exact runOperand_eq _ _ _ _ s
  all_goals
    rw [afterRoutine_of_no_reads rfl]
    refine (runImplied_eq _ _ s).trans ?_
  case rts =>
    rw [pullWord_eq]
    rfl
  case brk =>
    rw [takeTrap_eq]
    rfl
  case rti =>
    rw [returnFromTrap_eq]
    rfl
  all_goals rfl

end Sys2Proof.Machine
end

section
/-! PROOFS. Transactions (R31, R40): what a run of reads and writes on the bus leaves recorded, in memory and in the count of
reads, and the transactions of each instruction, once. -/

namespace Sys2Proof.Machine

open Sys2Proof.Claims

/-- Memory after one transaction on the bus: a write stores its byte. -/
def Bus.apply (b : Bus) (m : Memory) : BusAccess → Memory
  | .read _ _ => m
  | .write a v => b.store a v m

/-- `t` follows `s` by the transactions `l`: they are recorded, in order; the bus has answered the reads among them and is
otherwise as it was; memory is what the writes among them made of it. -/
structure State.Transacts (s : State) (l : List BusAccess) (t : State) : Prop where
  accesses : t.out.accesses = s.out.accesses ++ l
  bus : t.bus = { s.bus with reads := s.bus.reads + (l.filterMap answered).length }
  mem : t.mem = l.foldl s.bus.apply s.mem

theorem State.Transacts.none {s t : State} (haccesses : t.out.accesses = s.out.accesses) (hbus : t.bus = s.bus)
    (hmem : t.mem = s.mem) : s.Transacts [] t :=
  ⟨haccesses.trans (List.append_nil _).symm, hbus, hmem⟩

theorem State.Transacts.trans {s t u : State} {l l' : List BusAccess} (h : s.Transacts l t) (h' : t.Transacts l' u) :
    s.Transacts (l ++ l') u := by
  have happly : t.bus.apply = s.bus.apply := by
    rw [h.bus]
    rfl
  refine ⟨?_, ?_, ?_⟩
  · rw [h'.accesses, h.accesses, List.append_assoc]
  · rw [h'.bus, h.bus, List.filterMap_append, List.length_append, Nat.add_assoc]
  · rw [h'.mem, h.mem, happly, List.foldl_append]

/-- What the transactions leave is all that the fields other than these may differ in. -/
theorem State.Transacts.congr {s t u : State} {l : List BusAccess} (h : s.Transacts l t)
    (haccesses : u.out.accesses = t.out.accesses) (hbus : u.bus = t.bus) (hmem : u.mem = t.mem) : s.Transacts l u :=
  ⟨haccesses.trans h.accesses, hbus.trans h.bus, hmem.trans h.mem⟩

/-! ### Reads -/

theorem readsFrom_kind (s : State) (k : Nat) (l : List Addr) :
    (readsFrom s k l).map BusAccess.kind = l.map .readAt := by
  induction l generalizing k with
  | nil => rfl
  | cons a rest ih => rw [readsFrom, List.map_cons, ih, List.map_cons, BusAccess.kind]

theorem readsOf_kind (s : State) (l : List Addr) : (readsOf s l).map BusAccess.kind = l.map .readAt :=
  readsFrom_kind s 0 l

theorem filterMap_answered_readsFrom_length (s : State) (k : Nat) (l : List Addr) :
    ((readsFrom s k l).filterMap answered).length = l.length := by
  induction l generalizing k with
  | nil => rfl
  | cons a rest ih => rw [readsFrom, List.filterMap_cons, answered, List.length_cons, ih, List.length_cons]

theorem foldl_apply_readsFrom (b : Bus) (m : Memory) (s : State) (k : Nat) (l : List Addr) :
    (readsFrom s k l).foldl b.apply m = m := by
  induction l generalizing k with
  | nil => rfl
  | cons a rest ih => rw [readsFrom, List.foldl_cons, Bus.apply, ih]

/-- Reads are transactions, one for each address. -/
theorem afterReads_transacts (l : List Addr) (s : State) : s.Transacts (readsOf s l) (s.afterReads l) :=
  ⟨rfl, by rw [readsOf, filterMap_answered_readsFrom_length, State.afterReads], (foldl_apply_readsFrom _ _ s 0 l).symm⟩

/-! ### Memory after transactions -/

/-- Transactions keep the canonical form of memory. -/
theorem foldl_apply_wf {b : Bus} {m : Memory} (h : m.wf = true) (l : List BusAccess) :
    (l.foldl b.apply m).wf = true := by
  induction l generalizing m with
  | nil => exact h
  | cons e rest ih =>
    cases e with
    | read => exact ih h
    | write a v => exact ih (b.store_wf h a v)

/-- A byte that is behind no address written reads as before. -/
theorem read_foldl_apply {b : Bus} {m : Memory} {l : List BusAccess} {c : Addr}
    (h : ∀ a, AccessKind.writeAt a ∈ l.map BusAccess.kind → c ∉ (b.storeCell a).toList) :
    (l.foldl b.apply m).read c = m.read c := by
  induction l generalizing m with
  | nil => rfl
  | cons e rest ih =>
    have hrest := ih (m := b.apply m e) fun a ha => h a (List.mem_cons_of_mem _ ha)
    refine hrest.trans ?_
    cases e with
    | read => rfl
    | write a v => exact b.read_store_ne m v (h a List.mem_cons_self)

/-- Without a write, memory stays as it is. -/
theorem foldl_apply_of_no_write {b : Bus} {m : Memory} {l : List BusAccess}
    (h : ∀ a, AccessKind.writeAt a ∉ l.map BusAccess.kind) : l.foldl b.apply m = m := by
  induction l with
  | nil => rfl
  | cons e rest ih =>
    cases e with
    | read => exact ih fun a ha => h a (List.mem_cons_of_mem _ ha)
    | write a v => exact absurd List.mem_cons_self (h a)

/-! ### The transactions of an instruction -/

/-- The transactions a routine makes by the write table and the routine reads of R88, data left out. -/
def routineKinds (i : Instr) (s : State) : List AccessKind :=
  (storedAddrs i s).map .writeAt ++ (routineReadAddrs i s).map .readAt

theorem pushWord_transacts (w : Addr) (s : State) :
    s.Transacts [.write (stackAddr s.sp) (hiByte w), .write (stackAddr (s.sp - 1)) (loByte w)] (pushWord w s) := by
  rw [pushWord_eq]
  exact ⟨rfl, rfl, rfl⟩

/-- Trap entry writes its three bytes and then reads the vector (R88, R133). -/
theorem trap_transacts (s : State) (v : Byte) (ea : Option Addr) :
    ∃ l, s.Transacts l (routine .brk v ea s) ∧ l.map BusAccess.kind = routineKinds .brk s := by
  have hsaved : s.Transacts [.write (stackAddr s.sp) (hiByte s.pc), .write (stackAddr (s.sp - 1)) (loByte s.pc),
      .write (stackAddr (s.sp - 2)) s.p.packBrk] (trapSaved s) := ⟨rfl, rfl, rfl⟩
  have hvector := afterReads_transacts [Config.brkVector, Config.brkVector + 1] (trapSaved s)
  exact ⟨_, (hsaved.trans hvector).congr rfl rfl rfl, rfl⟩

/-- A routine that reads and does nothing else on the bus. -/
theorem transacts_of_reads {s t : State} {l : List Addr}
    (haccesses : t.out.accesses = (s.afterReads l).out.accesses) (hbus : t.bus = (s.afterReads l).bus)
    (hmem : t.mem = s.mem) : ∃ l', s.Transacts l' t ∧ l'.map BusAccess.kind = l.map .readAt :=
  ⟨_, (afterReads_transacts l s).congr haccesses hbus hmem, readsOf_kind s l⟩

theorem routine_transacts (i : Instr) (s : State) :
    ∃ l, (s.afterReads (operandReadAddrs i.operand s)).Transacts l (afterRoutine i s) ∧
      l.map BusAccess.kind = routineKinds i s := by
  cases i
  case asl | lsr | rol | ror | inc | dec | slo | rla | sre | rra | dcp | isc | sta | stx | sty | sax =>
    rw [afterRoutine]
    simp only [routineKinds, storedAddrs, resolve_eq, Instr.operand]
    cases effectiveAddr _ s with
    | none => exact ⟨[], .none rfl rfl rfl, rfl⟩
    | some ea => exact ⟨[.write ea _], ⟨rfl, rfl, rfl⟩, rfl⟩
  case pha | php => exact ⟨[.write _ _], ⟨rfl, rfl, rfl⟩, rfl⟩
  case jsr w =>
    have hpush := pushWord_transacts (s.pc - 1) (s.afterReads [w])
    exact ⟨_, ⟨hpush.accesses, hpush.bus, hpush.mem⟩, rfl⟩
  case brk => exact trap_transacts _ _ _
  case pla | plp | rts | rti => exact transacts_of_reads rfl rfl rfl
  all_goals exact ⟨[], .none rfl rfl rfl, rfl⟩

end Sys2Proof.Machine
end

section
/-! PROOFS. The fetch (R34, R84): the instruction at PC, decoded from the bytes that the bus answers there, and the state it
executes in. -/

namespace Sys2Proof.Machine

open Sys2Proof.Claims

/-- The instruction at PC: the one that the three bytes the bus answers there decode to. -/
def instrAtPc (s : State) : Instr := decodeBytes (s.answer 0 s.pc) (s.answer 1 (s.pc + 1)) (s.answer 2 (s.pc + 2))

/-- The bytes of the instruction at PC, by its opcode. -/
def lengthAtPc (s : State) : Nat := opcodeLength (s.answer 0 s.pc)

theorem fetch8_fetched_one (s : State) : fetch8 (fetched 1 s) = (s.answer 1 (s.pc + 1), fetched 2 s) := by
  have hpc : s.pc + 1#16 + 1#16 = s.pc + 2#16 := BitVec.add_assoc ..
  rw [fetch8_eq]
  simp [fetched, State.afterReads, readsOf, readsFrom, State.answer, Bus.port, Bus.deviceAnswer, hpc]

theorem fetch8_fetched_two (s : State) : fetch8 (fetched 2 s) = (s.answer 2 (s.pc + 2), fetched 3 s) := by
  have hpc : s.pc + 2#16 + 1#16 = s.pc + 3#16 := BitVec.add_assoc ..
  rw [fetch8_eq]
  simp [fetched, State.afterReads, readsOf, readsFrom, State.answer, Bus.port, Bus.deviceAnswer, hpc]

/-- R34, R84: a fetch reads the bytes of the instruction at PC, as many as its opcode asks for. -/
theorem fetchInstr_eq (s : State) : fetchInstr s = (instrAtPc s, fetched (lengthAtPc s) s) := by
  have hfetch : fetchInstr s = fetchOperands (s.answer 0 s.pc) (fetched 1 s) := rfl
  rw [hfetch, fetchOperands, lengthAtPc]
  obtain h | h | h := opcodeLength_cases (s.answer 0 s.pc)
  · have hbuild : instrAtPc s = decodeBytes (s.answer 0 s.pc) 0 0 := Entry.build_of_length_one h _ _
    simp only [h, hbuild]
  · have hbuild : instrAtPc s = decodeBytes (s.answer 0 s.pc) (s.answer 1 (s.pc + 1)) 0 :=
      Entry.build_of_length_two h _ _
    simp only [h, hbuild, fetch8_fetched_one]
  · simp only [h, fetch8_fetched_one, fetch8_fetched_two]
    rfl

/-- R84: a step while Running executes the instruction at PC. -/
theorem step_of_running {s : State} (h : s.run = .running) :
    step s = exec (instrAtPc s) (fetched (lengthAtPc s) s) := by
  simp only [step, h, fetchInstr_eq]

/-- What a step can do: the instruction at PC while Running, nothing but new outputs while not. -/
theorem next_of_step {s t : State} (h : step s = .next t) :
    (s.run = .running ∧ t = nextState (instrAtPc s) (fetched (lengthAtPc s) s)) ∨
    (s.run ≠ .running ∧ ∃ status, t = s.idle status) := by
  cases hrun : s.run with
  | running =>
    rw [step_of_running hrun, exec_eq] at h
    cases h
    exact .inl ⟨rfl, rfl⟩
  | halted =>
    rw [step_of_halted hrun] at h
    cases h
    exact .inr ⟨by simp, _, rfl⟩
  | faulted =>
    rw [step_of_faulted hrun] at h
    cases h
    exact .inr ⟨by simp, _, rfl⟩

/-! ### The decoder on the bytes at PC -/

theorem decode_bytesAtPc (s : State) : decode (bytesAtPc s) = .ok (instrAtPc s, (bytesAtPc s).drop (lengthAtPc s)) :=
  decode_cons _ _ _ []

theorem eq_instrAtPc_of_decode {s : State} {i : Instr} {rest : List Byte} (h : decode (bytesAtPc s) = .ok (i, rest)) :
    i = instrAtPc s := by
  rw [decode_bytesAtPc] at h
  cases h
  rfl

theorem instrAtPc_wf (s : State) : (instrAtPc s).wf = true :=
  decodeBytes_wf _ _ _

theorem lengthAtPc_eq_mode_length (s : State) : lengthAtPc s = (instrAtPc s).operand.mode.length :=
  opcodeLength_eq _ _ _

theorem lengthAtPc_eq_encode_length (s : State) : lengthAtPc s = (encode (instrAtPc s)).length := by
  rw [instrAtPc, encode_decodeBytes, lengthAtPc]
  obtain h | h | h := opcodeLength_cases (s.answer 0 s.pc) <;> rw [h] <;> rfl

/-- An instruction at PC that is an opcode argument by itself is the opcode there. -/
theorem eq_opcode_of_encode_instrAtPc {s : State} {op : Byte} (h : encode (instrAtPc s) = [op]) :
    op = s.answer 0 s.pc := by
  rw [instrAtPc, (decodeBytes_facts _ _ _).2.2.2] at h
  exact (List.cons.inj h).1.symm

end Sys2Proof.Machine
end

section
/-! PROOFS. What a step leaves, by the fields of the state: the end of an instruction touches outputs and run state only. -/

namespace Sys2Proof.Machine

open Sys2Proof.Claims

@[simp] theorem finish_a (i : Instr) (s t : State) : (finish i s t).a = t.a := by cases i <;> rfl
@[simp] theorem finish_x (i : Instr) (s t : State) : (finish i s t).x = t.x := by cases i <;> rfl
@[simp] theorem finish_y (i : Instr) (s t : State) : (finish i s t).y = t.y := by cases i <;> rfl
@[simp] theorem finish_sp (i : Instr) (s t : State) : (finish i s t).sp = t.sp := by cases i <;> rfl
@[simp] theorem finish_pc (i : Instr) (s t : State) : (finish i s t).pc = t.pc := by cases i <;> rfl
@[simp] theorem finish_p (i : Instr) (s t : State) : (finish i s t).p = t.p := by cases i <;> rfl
@[simp] theorem finish_bus (i : Instr) (s t : State) : (finish i s t).bus = t.bus := by cases i <;> rfl
@[simp] theorem finish_mem (i : Instr) (s t : State) : (finish i s t).mem = t.mem := by cases i <;> rfl
@[simp] theorem finish_accesses (i : Instr) (s t : State) : (finish i s t).out.accesses = t.out.accesses := by
  cases i <;> rfl
@[simp] theorem finish_trace (i : Instr) (s t : State) : (finish i s t).out.trace = t.out.trace := by cases i <;> rfl

/-- An instruction's transactions: its operand's reads, then its routine's writes and reads. -/
theorem nextState_transacts (i : Instr) (s : State) :
    ∃ l, s.Transacts l (nextState i s) ∧
      l.map BusAccess.kind = (operandReadAddrs i.operand s).map .readAt ++ routineKinds i s := by
  obtain ⟨l, hroutine, hkinds⟩ := routine_transacts i s
  have hall := (afterReads_transacts (operandReadAddrs i.operand s) s).trans hroutine
  exact ⟨_, hall.congr (finish_accesses _ _ _) (finish_bus _ _ _) (finish_mem _ _ _),
    by rw [List.map_append, readsOf_kind, hkinds]⟩

/-- The transactions of a fetch: the reads of the instruction's bytes. -/
theorem fetched_transacts (n : Nat) (s : State) :
    s.clearOutput.Transacts (readsOf s ([s.pc, s.pc + 1, s.pc + 2].take n)) (fetched n s) :=
  ⟨rfl, by rw [readsOf, filterMap_answered_readsFrom_length, fetched]; rfl, (foldl_apply_readsFrom _ _ s 0 _).symm⟩

/-- A step's transactions, from no outputs: while Running the instruction's bytes, then the instruction's; else none. -/
theorem step_transacts {s t : State} (h : step s = .next t) : ∃ l, s.clearOutput.Transacts l t := by
  obtain ⟨-, rfl⟩ | ⟨-, status, rfl⟩ := next_of_step h
  · obtain ⟨l, hnext, -⟩ := nextState_transacts (instrAtPc s) (fetched (lengthAtPc s) s)
    exact ⟨_, (fetched_transacts _ s).trans hnext⟩
  · exact ⟨[], .none rfl rfl rfl⟩

end Sys2Proof.Machine
end

section
/-! PROOFS. What every step does: it answers a next state, keeps the invariant and the bus, and makes the transactions of the
instruction at PC. -/

open Sys2Proof Sys2Proof.Machine Sys2Proof.Claims

/-- Settles O9: memory after a step is what its transactions made of it, and each keeps the canonical form; the flags are
R17's. -/
theorem stepKeepsInvariant : Obligations.StepKeepsInvariant := by
  unfold Obligations.StepKeepsInvariant
  intro s t ⟨hmem, hb, hu⟩ h
  obtain ⟨l, htransacts⟩ := step_transacts h
  obtain ⟨hb', hu'⟩ := Flags.breakAndUnused_eq_iff.1
    (step_breakAndUnused_invariant (Flags.breakAndUnused_eq_iff.2 ⟨hb, hu⟩) h)
  exact ⟨by rw [htransacts.mem]; exact foldl_apply_wf hmem l, hb', hu'⟩

/-- Settles O10: while Running every instruction answers its next state, and a latched state idles. -/
theorem everyStepAnswersNextState : Obligations.EveryStepAnswersNextState := by
  unfold Obligations.EveryStepAnswersNextState
  intro s
  cases hrun : s.run with
  | running => exact ⟨_, (step_of_running hrun).trans (exec_eq _ _)⟩
  | halted => exact ⟨_, step_of_halted hrun⟩
  | faulted => exact ⟨_, step_of_faulted hrun⟩

/-- Settles O13: the bus after a step has answered the reads among its transactions, which are all that it records. -/
theorem stepKeepsTheBusParameter : Obligations.StepKeepsTheBusParameter := by
  unfold Obligations.StepKeepsTheBusParameter
  intro s t h
  obtain ⟨l, haccesses, hbus, -⟩ := step_transacts h
  rw [hbus, haccesses]
  rfl

/-- Settles O1: the step executes the instruction that the bytes at PC decode to, its bytes fetched. -/
theorem stepRunsDecodedInstruction : Obligations.StepRunsDecodedInstruction := by
  unfold Obligations.StepRunsDecodedInstruction
  intro s i rest hrun hdecode
  obtain rfl := eq_instrAtPc_of_decode hdecode
  rw [← lengthAtPc_eq_encode_length]
  exact ⟨instrAtPc_wf s, step_of_running hrun⟩

/-- Settles O19: the fetch reads the instruction's bytes, and the rest are the transactions of the instruction. -/
theorem stepAccessesFollowModeAndRoutine : Obligations.StepAccessesFollowModeAndRoutine := by
  unfold Obligations.StepAccessesFollowModeAndRoutine
  intro s t i rest hrun hdecode h
  obtain rfl := eq_instrAtPc_of_decode hdecode
  rw [step_of_running hrun, exec_eq] at h
  cases h
  dsimp only
  rw [← lengthAtPc_eq_mode_length]
  obtain ⟨l, htransacts, hkinds⟩ := nextState_transacts (instrAtPc s) (fetched (lengthAtPc s) s)
  obtain ⟨haccesses, -, -⟩ := (fetched_transacts (lengthAtPc s) s).trans htransacts
  simp only [haccesses, State.clearOutput_out, StepOutput.empty, List.nil_append, List.map_append, readsOf_kind, hkinds,
    routineKinds, List.append_assoc]

/-- Settles O22: memory after an instruction is what its transactions made of it, and its writes are the stored addresses. -/
theorem bytesNotStoredToAreUnchanged : Obligations.BytesNotStoredToAreUnchanged := by
  unfold Obligations.BytesNotStoredToAreUnchanged
  intro i s t h
  rw [exec_eq] at h
  cases h
  obtain ⟨l, htransacts, hkinds⟩ := nextState_transacts i s
  have hstored (a : Addr) : AccessKind.writeAt a ∈ l.map BusAccess.kind ↔ a ∈ storedAddrs i s := by
    simp [hkinds, routineKinds]
  have hbehind (c : Addr) (hc : c ∉ (storedAddrs i s).filterMap s.bus.storeCell) :
      (nextState i s).mem.read c = s.mem.read c := by
    rw [htransacts.mem]
    refine read_foldl_apply fun a ha hcell => hc ?_
    exact List.mem_filterMap.2 ⟨a, (hstored a).1 ha, Option.mem_toList.1 hcell⟩
  refine ⟨hbehind, fun hflat a ha => hbehind a ?flat, fun hnone => ?none⟩
  case flat => simpa [Bus.storeCell_of_flat hflat] using ha
  case none =>
    rw [htransacts.mem]
    exact foldl_apply_of_no_write fun a ha => by simpa [hnone] using (hstored a).1 ha
end

section
/-! PROOFS. The write table (R21), column by column: the state after an instruction's routine differs from the state before it
in the columns of its row only. Where the routine works at the effective address, whether there is one does not matter. -/

namespace Sys2Proof.Machine

section
variable {i : Instr}

/-- Column X. -/
theorem routine_x (hi : i.writesX = false) (v : Byte) (ea : Option Addr) (t : State) : (routine i v ea t).x = t.x := by
  cases i
  case ldx | tax | tsx | inx | dex | lax | laxImmediate | axs | las => cases hi
  case asl | lsr | rol | ror | jmp | jmpIndirect | jsr | sta | stx | sty | inc | dec | slo | rla | sre | rra | sax | dcp
      | isc =>
    cases ea <;> rfl
  all_goals rfl

/-- Column Y. -/
theorem routine_y (hi : i.writesY = false) (v : Byte) (ea : Option Addr) (t : State) : (routine i v ea t).y = t.y := by
  cases i
  case ldy | tay | iny | dey => cases hi
  case asl | lsr | rol | ror | jmp | jmpIndirect | jsr | sta | stx | sty | inc | dec | slo | rla | sre | rra | sax | dcp
      | isc =>
    cases ea <;> rfl
  all_goals rfl

/-- Column SP. -/
theorem routine_sp (hi : i.writesSP = false) (v : Byte) (ea : Option Addr) (t : State) :
    (routine i v ea t).sp = t.sp := by
  cases i
  case txs | pha | php | pla | plp | jsr | rts | brk | rti | las => cases hi
  case asl | lsr | rol | ror | jmp | jmpIndirect | sta | stx | sty | inc | dec | slo | rla | sre | rra | sax | dcp
      | isc =>
    cases ea <;> rfl
  all_goals rfl

/-- PC, which only control flow writes. -/
theorem routine_pc (hi : i.writesPC = false) (v : Byte) (ea : Option Addr) (t : State) :
    (routine i v ea t).pc = t.pc := by
  cases i
  case bcc | bcs | beq | bne | bmi | bpl | bvc | bvs | jmp | jmpIndirect | jsr | rts | brk | rti => cases hi
  case asl | lsr | rol | ror | sta | stx | sty | inc | dec | slo | rla | sre | rra | sax | dcp | isc =>
    cases ea <;> rfl
  all_goals rfl

/-- No routine writes the run state or the trace record. -/
theorem routine_run_trace (i : Instr) (v : Byte) (ea : Option Addr) (t : State) :
    (routine i v ea t).run = t.run ∧ (routine i v ea t).out.trace = t.out.trace := by
  cases i
  case asl | lsr | rol | ror | jmp | jmpIndirect | jsr | sta | stx | sty | inc | dec | slo | rla | sre | rra | sax | dcp
      | isc =>
    cases ea <;> exact ⟨rfl, rfl⟩
  all_goals exact ⟨rfl, rfl⟩

/-- Columns N and Z. -/
theorem routine_nz (hi : i.writesNZ = false) (v : Byte) (ea : Option Addr) (t : State) :
    (routine i v ea t).p.n = t.p.n ∧ (routine i v ea t).p.z = t.p.z := by
  cases i
  case jmp | jmpIndirect | jsr | sta | stx | sty | sax => cases ea <;> exact ⟨rfl, rfl⟩
  case bcc | bcs | beq | bne | bmi | bpl | bvc | bvs | rts | brk | pha | php | txs | clc | cld | cli | clv | sec | sed
      | sei | nop | nopOneByte | nopTwoByte | nopThreeByte | kil | invalid =>
    exact ⟨rfl, rfl⟩
  all_goals cases hi

/-- Column V. -/
theorem routine_v (hi : i.writesV = false) (v : Byte) (ea : Option Addr) (t : State) :
    (routine i v ea t).p.v = t.p.v := by
  cases i
  case adc | sbc | sbcEB | bit | plp | rti | clv | rra | isc | arr => cases hi
  case asl | lsr | rol | ror | jmp | jmpIndirect | jsr | sta | stx | sty | inc | dec | slo | rla | sre | sax | dcp =>
    cases ea <;> rfl
  all_goals rfl

/-- Column C. -/
theorem routine_c (hi : i.writesC = false) (v : Byte) (ea : Option Addr) (t : State) :
    (routine i v ea t).p.c = t.p.c := by
  cases i
  case jmp | jmpIndirect | jsr | sta | stx | sty | sax | inc | dec => cases ea <;> rfl
  case adc | sbc | sbcEB | asl | lsr | rol | ror | cmp | cpx | cpy | plp | rti | clc | sec | slo | rla | sre | rra | dcp
      | isc | anc | alr | arr | axs =>
    cases hi
  all_goals rfl

/-- Column I. -/
theorem routine_i (hi : i.writesI = false) (v : Byte) (ea : Option Addr) (t : State) :
    (routine i v ea t).p.i = t.p.i := by
  cases i
  case plp | rti | cli | sei => cases hi
  case asl | lsr | rol | ror | jmp | jmpIndirect | jsr | sta | stx | sty | inc | dec | slo | rla | sre | rra | sax | dcp
      | isc =>
    cases ea <;> rfl
  all_goals rfl

/-- Column D. -/
theorem routine_d (hi : i.writesD = false) (v : Byte) (ea : Option Addr) (t : State) :
    (routine i v ea t).p.d = t.p.d := by
  cases i
  case plp | rti | cld | sed => cases hi
  case asl | lsr | rol | ror | jmp | jmpIndirect | jsr | sta | stx | sty | inc | dec | slo | rla | sre | rra | sax | dcp
      | isc =>
    cases ea <;> rfl
  all_goals rfl

/-- The shifts have an effective address in every well-formed form but Accumulator. -/
theorem hasAddress_of_shift {m : Mode} (hwf : shiftModes.contains m = true) (hm : (m == .accumulator) = false) :
    m.hasAddress = true := by
  cases m
  case accumulator => cases hm
  case zeroPage | zeroPageX | absolute | absoluteX => rfl
  all_goals cases hwf

/-- Column A. A well-formed shift that does not write A has an effective address, and writes there. -/
theorem afterRoutine_a (hwf : i.wf = true) (hi : i.writesA = false) (s : State) : (afterRoutine i s).a = s.a := by
  rw [afterRoutine]
  cases i
  case adc | sbc | sbcEB | and | eor | ora | lda | pla | txa | tya | slo | sre | rla | rra | isc | lax | laxImmediate | anc
      | alr | arr | xaa | las =>
    cases hi
  case asl o | lsr o | rol o | ror o =>
    obtain ⟨ea, hea⟩ := Option.isSome_iff_exists.1
      ((effectiveAddr_isSome o s).trans (hasAddress_of_shift hwf hi))
    simp only [Instr.operand, hea]
    rfl
  case jmp | jmpIndirect | jsr | sta | stx | sty | inc | dec | sax | dcp =>
    cases effectiveAddr _ s <;> rfl
  all_goals rfl

end

end Sys2Proof.Machine
end

section
/-! PROOFS. The Decimal and Interrupt flags are inert (R22, R23): changing them before an instruction changes nothing but them
after it. -/

namespace Sys2Proof.Machine

/-- D and I through two functions, the other flags as they are. -/
def Flags.mapDI (d i : Bool → Bool) (p : Flags) : Flags := { p with d := d p.d, i := i p.i }

/-- The state with D and I through two functions. -/
def State.mapDI (d i : Bool → Bool) (s : State) : State := { s with p := s.p.mapDI d i }

section
variable {d i : Bool → Bool}

theorem readsOf_mapDI (l : List Addr) (s : State) : readsOf (s.mapDI d i) l = readsOf s l :=
  readsFrom_congr (s := s) (t := s.mapDI d i) rfl rfl 0 l

theorem afterReads_mapDI (l : List Addr) (s : State) : (s.mapDI d i).afterReads l = (s.afterReads l).mapDI d i := by
  rw [State.afterReads, readsOf_mapDI]
  rfl

theorem operand_mapDI (o : Operand) (s : State) :
    operandValue o (s.mapDI d i) = operandValue o s ∧ effectiveAddr o (s.mapDI d i) = effectiveAddr o s ∧
      operandReadAddrs o (s.mapDI d i) = operandReadAddrs o s ∧ pageCrossed o (s.mapDI d i) = pageCrossed o s := by
  cases o <;> exact ⟨rfl, rfl, rfl, rfl⟩

theorem ownExtra_mapDI (instr : Instr) (s : State) : ownExtra instr (s.mapDI d i) = ownExtra instr s := by
  have htaken : branchTaken instr (s.mapDI d i).p = branchTaken instr s.p := by cases instr <;> rfl
  rw [ownExtra, htaken]
  rfl

/-- A routine that pushes no flags reads neither D nor I; one that writes D, or I, is out unless that flag is left alone. -/
theorem routine_mapDI {instr : Instr} (hpush : instr.pushesFlags = false) (hd : instr.writesD = true → d = id)
    (hi : instr.writesI = true → i = id) (v : Byte) (ea : Option Addr) (t : State) :
    routine instr v ea (t.mapDI d i) = (routine instr v ea t).mapDI d i := by
  cases instr
  case php | brk => cases hpush
  case cld | sed =>
    obtain rfl := hd rfl
    rfl
  case cli | sei =>
    obtain rfl := hi rfl
    rfl
  case plp | rti =>
    obtain rfl := hd rfl
    obtain rfl := hi rfl
    rfl
  case asl | lsr | rol | ror | jmp | jmpIndirect | jsr | sta | stx | sty | inc | dec | slo | rla | sre | rra | sax | dcp
      | isc =>
    cases ea <;> rfl
  all_goals rfl

theorem exec_mapDI {instr : Instr} (hpush : instr.pushesFlags = false) (hd : instr.writesD = true → d = id)
    (hi : instr.writesI = true → i = id) (s : State) :
    exec instr (s.mapDI d i) = .next ((nextState instr s).mapDI d i) := by
  obtain ⟨hvalue, hea, hreads, hcrossed⟩ := operand_mapDI (d := d) (i := i) instr.operand s
  have hfinish (t : State) : finish instr (s.mapDI d i) (t.mapDI d i) = (finish instr s t).mapDI d i := by
    cases instr <;> simp only [finish, hcrossed, ownExtra_mapDI] <;> rfl
  rw [exec_eq, nextState, afterRoutine, hvalue, hea, hreads, afterReads_mapDI, routine_mapDI hpush hd hi, hfinish]
  rfl

end

end Sys2Proof.Machine
end

section
/-! PROOFS. How a step ends (R60, R220, R221): the run state and the status after it, and the bytes that halt and fault. -/

namespace Sys2Proof.Machine

open Sys2Proof.Claims

/-- An instruction ends Halted, Faulted, or as it began; the status says which. -/
theorem nextState_run_status (i : Instr) (s : State) :
    ((∃ op, i = .kil op) ∧ (nextState i s).run = .halted ∧ (nextState i s).out.status = .halted) ∨
    ((∃ op, i = .invalid op) ∧ (nextState i s).run = .faulted ∧ (nextState i s).out.status = .faulted) ∨
    ((∀ op, i ≠ .kil op ∧ i ≠ .invalid op) ∧ (nextState i s).run = s.run ∧ (nextState i s).out.status = .ok) := by
  have hrun : (afterRoutine i s).run = s.run := (routine_run_trace _ _ _ _).1
  cases i
  case kil op => exact .inl ⟨⟨op, rfl⟩, rfl, rfl⟩
  case invalid op => exact .inr (.inl ⟨⟨op, rfl⟩, rfl, rfl⟩)
  all_goals exact .inr (.inr ⟨fun _ => ⟨nofun, nofun⟩, hrun, rfl⟩)

theorem nextState_trace (i : Instr) (s : State) : (nextState i s).out.trace = s.out.trace := by
  rw [nextState, finish_trace]
  exact (routine_run_trace _ _ _ _).2

/-- R220: the instruction at PC is KIL exactly at the twelve bytes. -/
theorem instrAtPc_kil_iff (s : State) : (∃ op, instrAtPc s = .kil op) ↔ s.answer 0 s.pc ∈ kilOpcodes := by
  constructor
  · rintro ⟨op, hi⟩
    have hop : op = s.answer 0 s.pc := eq_opcode_of_encode_instrAtPc (by rw [hi, encode])
    have hwf := instrAtPc_wf s
    rw [hi] at hwf
    exact hop ▸ List.contains_iff_mem.1 hwf
  · intro h
    obtain ⟨hlength, hdecode⟩ := decodeBytes_of_kil _ h
    exact ⟨_, (Entry.build_of_length_one hlength _ _).trans hdecode⟩

/-- R221: the instruction at PC is invalid exactly at the five bytes. -/
theorem instrAtPc_invalid_iff (s : State) :
    (∃ op, instrAtPc s = .invalid op) ↔ s.answer 0 s.pc ∈ invalidOpcodes := by
  constructor
  · rintro ⟨op, hi⟩
    have hop : op = s.answer 0 s.pc := eq_opcode_of_encode_instrAtPc (by rw [hi, encode])
    have hwf := instrAtPc_wf s
    rw [hi] at hwf
    exact hop ▸ List.contains_iff_mem.1 hwf
  · intro h
    obtain ⟨hlength, hdecode⟩ := decodeBytes_of_invalid _ h
    exact ⟨_, (Entry.build_of_length_one hlength _ _).trans hdecode⟩

/-- R86, R243: while not Running, any number of steps leave the state but for its outputs. -/
theorem run_of_not_running (k : Nat) {s : State} (h : s.run ≠ .running) :
    ∃ t, Host.Core.run core k s = .next t ∧ SameMachine s t := by
  induction k generalizing s with
  | zero => exact ⟨s, rfl, rfl⟩
  | succ k ih =>
    obtain ⟨t, hstep⟩ : ∃ t, step s = .next t := everyStepAnswersNextState s
    obtain ⟨hrun, -⟩ | ⟨-, status, rfl⟩ := next_of_step hstep
    · exact absurd hrun h
    · obtain ⟨u, hu, hsame⟩ := ih (s := s.idle status) h
      have hrun : Host.Core.run core (k + 1) s = Host.Core.run core k (s.idle status) := by
        simp only [Host.Core.run, show core.step s = _ from hstep]
      exact ⟨u, hrun.trans hu, hsame⟩

end Sys2Proof.Machine
end

section
/-! PROOFS. What a step and an instruction leave as it was, and how a run goes on. -/

open Sys2Proof Sys2Proof.Machine Sys2Proof.Claims

/-- Settles O20: the columns of the routine; the end of the instruction writes outputs, and the run state of KIL and the
invalid bytes. -/
theorem registersNotInWriteTableAreUnchanged : Obligations.RegistersNotInWriteTableAreUnchanged := by
  unfold Obligations.RegistersNotInWriteTableAreUnchanged
  intro i s t hwf h
  rw [exec_eq] at h
  cases h
  refine ⟨fun hi => ?a, fun hi => ?x, fun hi => ?y, fun hi => ?sp, fun hi => ?pc, fun hi => ?run⟩
  case a => rw [nextState, finish_a, afterRoutine_a hwf hi]
  case x => exact (finish_x _ _ _).trans (routine_x hi _ _ _)
  case y => exact (finish_y _ _ _).trans (routine_y hi _ _ _)
  case sp => exact (finish_sp _ _ _).trans (routine_sp hi _ _ _)
  case pc => exact (finish_pc _ _ _).trans (routine_pc hi _ _ _)
  case run =>
    obtain ⟨⟨op, hkil⟩, -⟩ | ⟨⟨op, hinvalid⟩, -⟩ | ⟨-, hrun, -⟩ := nextState_run_status i s
    · exact absurd hkil (hi op).1
    · exact absurd hinvalid (hi op).2
    · exact hrun

/-- Settles O21: the flag columns of the routine; D and I are untouched where they are inert, B and U but by a pull. -/
theorem flagsNotInWriteTableAreUnchanged : Obligations.FlagsNotInWriteTableAreUnchanged := by
  unfold Obligations.FlagsNotInWriteTableAreUnchanged
  intro i s t _ h
  have hbu (hi : i.pullsFlags = false) := exec_keeps_breakAndUnused hi h
  rw [exec_eq] at h
  cases h
  simp only [nextState, finish_p] at hbu ⊢
  exact ⟨fun hi => routine_nz hi _ _ _, fun hi => routine_v hi _ _ _, fun hi => routine_c hi _ _ _,
    fun hi => routine_i hi _ _ _, fun hi => routine_d hi _ _ _,
    fun hi => Flags.breakAndUnused_eq_iff.1 (hbu hi)⟩

/-- Settles O23: D and I are inert in every instruction that neither pushes the flags nor writes them. -/
theorem decimalAndInterruptFlagsAreInert : Obligations.DecimalAndInterruptFlagsAreInert := by
  unfold Obligations.DecimalAndInterruptFlagsAreInert
  intro i s t f hpush h
  rw [exec_eq] at h
  cases h
  refine ⟨fun hd => ?decimal, fun hi => ?interrupt⟩
  case decimal =>
    exact exec_mapDI (d := fun _ => f) (i := id) hpush (fun h => by rw [hd] at h; cases h) (fun _ => rfl) s
  case interrupt =>
    exact exec_mapDI (d := id) (i := fun _ => f) hpush (fun _ => rfl) (fun h => by rw [hi] at h; cases h) s

/-- Settles O16: KIL and the invalid bytes are the two ends of a step other than Running, and the status says which. -/
theorem runStateChangesOnlyByKilAndInvalid : Obligations.RunStateChangesOnlyByKilAndInvalid := by
  unfold Obligations.RunStateChangesOnlyByKilAndInvalid
  intro s t hrun h
  rw [step_of_running hrun, exec_eq] at h
  cases h
  change (_ ↔ _ ∈ kilOpcodes) ∧ (_ ↔ _ ∈ invalidOpcodes) ∧ _
  rw [← instrAtPc_kil_iff, ← instrAtPc_invalid_iff]
  obtain ⟨⟨op, hi⟩, hend, hstatus⟩ | ⟨⟨op, hi⟩, hend, hstatus⟩ | ⟨hi, hend, hstatus⟩ :=
    nextState_run_status (instrAtPc s) (fetched (lengthAtPc s) s)
  · rw [State.Safe, hend, hstatus]
    simp [hi]
  · rw [State.Safe, hend, hstatus]
    simp [hi]
  · rw [State.Safe, hend.trans hrun, hstatus]
    simp [hi]

/-- Settles O17: the fetch emits the record, and nothing after it touches the record. -/
theorem traceRecordHoldsStateBeforeInstruction : Obligations.TraceRecordHoldsStateBeforeInstruction := by
  unfold Obligations.TraceRecordHoldsStateBeforeInstruction
  intro s t hrun h
  rw [step_of_running hrun, exec_eq] at h
  cases h
  exact nextState_trace _ _

/-- Settles O15: by induction on the number of steps, each of which idles. -/
theorem onlyResetLeavesHaltedOrFaulted : Obligations.OnlyResetLeavesHaltedOrFaulted := by
  unfold Obligations.OnlyResetLeavesHaltedOrFaulted
  exact fun k s h => ⟨run_of_not_running k h, rfl⟩

/-- Settles O6: the reset operation is the reset state with the bus and memory of before; a step that is not Running idles. -/
theorem resetOperationKeepsMemoryOnly : Obligations.ResetOperationKeepsMemoryOnly := by
  unfold Obligations.ResetOperationKeepsMemoryOnly
  refine fun s => ⟨rfl, rfl, fun t h hstep => ?_⟩
  obtain ⟨hrun, -⟩ | ⟨-, status, rfl⟩ := next_of_step hstep
  · exact absurd hrun h
  · rfl

/-- Settles O7: nothing listed is canonical, and the two flags are R19's. -/
theorem resetMeetsInvariant : Obligations.ResetMeetsInvariant := by
  unfold Obligations.ResetMeetsInvariant
  exact ⟨reset_mem_wf, rfl, rfl⟩
end

section
/-! PROOFS. Noninterference of the bus and memory (R31, R40, R47): two runs that differ there, and are answered the same bytes,
agree at every stage of a step on all else. -/

namespace Sys2Proof.Machine

open Sys2Proof.Claims

/-- The bytes that the bus has answered among the recorded transactions. -/
def State.bytesRead (s : State) : List Byte := s.out.accesses.filterMap answered

/-- Two states that agree on all but their bus and memory. -/
def State.AgreesWith (s s' : State) : Prop := { s' with bus := s.bus, mem := s.mem } = s

theorem State.AgreesWith.eq {s s' : State} (h : s.AgreesWith s') : s' = { s with bus := s'.bus, mem := s'.mem } := by
  rw [← h]

theorem State.AgreesWith.bytesRead {s s' : State} (h : s.AgreesWith s') : s'.bytesRead = s.bytesRead := by
  rw [h.eq]
  rfl

/-- Transactions only add to the bytes read: what has been read at the end determines what had been read so many bytes in. -/
theorem bytesRead_eq_of_transacts {s s' t t' : State} {l l' : List BusAccess} (h : s.Transacts l t)
    (h' : s'.Transacts l' t') (hlength : s'.bytesRead.length = s.bytesRead.length) (hbytes : t'.bytesRead = t.bytesRead) :
    s'.bytesRead = s.bytesRead := by
  rw [State.bytesRead, State.bytesRead, h.accesses, h'.accesses, List.filterMap_append, List.filterMap_append] at hbytes
  exact List.append_inj_left hbytes hlength

/-! ### Reads -/

/-- Reads of the same addresses that are answered the same bytes are the same reads. -/
theorem readsFrom_eq_of_bytes {s s' : State} {l : List Addr} {k : Nat}
    (h : (readsFrom s' k l).filterMap answered = (readsFrom s k l).filterMap answered) :
    readsFrom s' k l = readsFrom s k l := by
  induction l generalizing k with
  | nil => rfl
  | cons a rest ih =>
    simp only [readsFrom, List.filterMap_cons, answered, List.cons.injEq] at h ⊢
    exact ⟨by rw [h.1], ih h.2⟩

theorem bytesRead_afterReads (l : List Addr) (s : State) :
    (s.afterReads l).bytesRead = s.bytesRead ++ (readsOf s l).filterMap answered := by
  rw [State.bytesRead, State.afterReads_out, List.filterMap_append]
  rfl

theorem readsOf_eq_of_bytes {s s' : State} {l : List Addr} (h : s.AgreesWith s')
    (hbytes : (s'.afterReads l).bytesRead = (s.afterReads l).bytesRead) : readsOf s' l = readsOf s l := by
  rw [bytesRead_afterReads, bytesRead_afterReads, h.bytesRead] at hbytes
  exact readsFrom_eq_of_bytes (List.append_cancel_left hbytes)

theorem afterReads_agrees {s s' : State} {l : List Addr} (h : s.AgreesWith s') (hreads : readsOf s' l = readsOf s l) :
    (s.afterReads l).AgreesWith (s'.afterReads l) := by
  rw [State.AgreesWith, State.afterReads, State.afterReads, hreads]
  rw [h.eq]

/-- The mode of an operand alone says how many reads it makes. -/
theorem operandReadAddrs_length (o : Operand) (s s' : State) :
    (operandReadAddrs o s').length = (operandReadAddrs o s).length := by
  cases o <;> rfl

/-- Three reads that are answered the same bytes, at whatever addresses: each answer is the same. -/
theorem answers_of_three_reads {s s' : State} {a b c a' b' c' : Addr}
    (h : (readsOf s' [a', b', c']).filterMap answered = (readsOf s [a, b, c]).filterMap answered) :
    s'.answer 0 a' = s.answer 0 a ∧ s'.answer 1 b' = s.answer 1 b ∧ s'.answer 2 c' = s.answer 2 c := by
  simpa [readsOf, readsFrom, answered] using h

/-- R70 to R82: an operand's reads, value, address and crossing depend on the bytes its reads are answered and on the
registers. -/
theorem operand_agrees {o : Operand} {s s' : State} (h : s.AgreesWith s')
    (hbytes : (s'.afterReads (operandReadAddrs o s')).bytesRead = (s.afterReads (operandReadAddrs o s)).bytesRead) :
    operandReadAddrs o s' = operandReadAddrs o s ∧ operandValue o s' = operandValue o s ∧
      effectiveAddr o s' = effectiveAddr o s ∧ pageCrossed o s' = pageCrossed o s := by
  rw [bytesRead_afterReads, bytesRead_afterReads, h.bytesRead] at hbytes
  replace hbytes := List.append_cancel_left hbytes
  have ha : s'.a = s.a := by rw [h.eq]
  have hx : s'.x = s.x := by rw [h.eq]
  have hy : s'.y = s.y := by rw [h.eq]
  cases o
  case indirectX zp =>
    obtain ⟨hlow, hhigh, hvalue⟩ := answers_of_three_reads hbytes
    have hpointer : s'.wordZP (zp + s'.x) = s.wordZP (zp + s.x) := congrArg₂ wordOf hhigh hlow
    exact ⟨by rw [operandReadAddrs, effectiveAddr, hpointer, hx]; rfl, hvalue, congrArg some hpointer, rfl⟩
  case indirectY zp =>
    obtain ⟨hlow, hhigh, hvalue⟩ := answers_of_three_reads hbytes
    have hpointer : s'.wordZP zp = s.wordZP zp := congrArg₂ wordOf hhigh hlow
    exact ⟨by simp only [operandReadAddrs, effectiveAddr, hpointer, hy], hvalue,
      by simp only [effectiveAddr, hpointer, hy], rfl⟩
  all_goals
    simp_all [operandReadAddrs, operandValue, effectiveAddr, pageCrossed, readsOf, readsFrom, answered, State.word]

/-! ### The routine, the fetch, the step -/

/-- Loading PC from two addresses depends on the bytes answered there. -/
theorem loadPc_agrees {s s' : State} {low high : Addr} (h : s.AgreesWith s')
    (hbytes : (s'.afterReads [low, high]).bytesRead = (s.afterReads [low, high]).bytesRead) :
    State.AgreesWith { s.afterReads [low, high] with pc := s.word low high }
      { s'.afterReads [low, high] with pc := s'.word low high } := by
  obtain ⟨b, m, rfl⟩ : ∃ b m, s' = { s with bus := b, mem := m } := ⟨_, _, h.eq⟩
  have hreads := readsOf_eq_of_bytes h hbytes
  obtain ⟨hlow, hhigh⟩ : _ ∧ _ := by simpa [readsOf, readsFrom] using hreads
  simp [State.AgreesWith, State.afterReads, State.word, readsOf, readsFrom, hlow, hhigh]

/-- What a routine leaves, bus and memory apart, depends on the bytes its reads are answered. -/
theorem routine_agrees {i : Instr} {v : Byte} {ea : Option Addr} {s s' : State} (h : s.AgreesWith s')
    (hbytes : (routine i v ea s').bytesRead = (routine i v ea s).bytesRead) :
    (routine i v ea s).AgreesWith (routine i v ea s') := by
  obtain ⟨b, m, rfl⟩ : ∃ b m, s' = { s with bus := b, mem := m } := ⟨_, _, h.eq⟩
  cases i
  case pla | plp =>
    have hreads := readsOf_eq_of_bytes (l := [stackAddr (s.sp + 1)]) h hbytes
    have hbyte : State.answer { s with bus := b, mem := m } 0 (stackAddr (s.sp + 1#8)) =
        s.answer 0 (stackAddr (s.sp + 1#8)) := by
      simpa [readsOf, readsFrom] using hreads
    simp [State.AgreesWith, routine, pull8_eq, State.loadA, readsOf, readsFrom, hbyte]
  case rts =>
    have hreads := readsOf_eq_of_bytes (l := [stackAddr (s.sp + 1), stackAddr (s.sp + 2)]) h hbytes
    obtain ⟨hlow, hhigh⟩ : _ ∧ _ := by simpa [readsOf, readsFrom] using hreads
    simp [State.AgreesWith, routine, State.afterReads, State.word, readsOf, readsFrom, hlow, hhigh]
  case rti =>
    have hreads :=
      readsOf_eq_of_bytes (l := [stackAddr (s.sp + 1), stackAddr (s.sp + 2), stackAddr (s.sp + 3)]) h hbytes
    obtain ⟨hflags, hlow, hhigh⟩ : _ ∧ _ ∧ _ := by simpa [readsOf, readsFrom] using hreads
    simp [State.AgreesWith, routine, State.afterReads, readsOf, readsFrom, hflags, hlow, hhigh]
  case brk =>
    have hsaved : (trapSaved s).AgreesWith (trapSaved { s with bus := b, mem := m }) := rfl
    exact loadPc_agrees hsaved hbytes
  case asl | lsr | rol | ror | jmp | jmpIndirect | jsr | sta | stx | sty | inc | dec | slo | rla | sre | rra | sax | dcp
      | isc =>
    cases ea <;> rfl
  all_goals rfl

theorem ownExtra_agrees {s s' : State} (h : s.AgreesWith s') (i : Instr) : ownExtra i s' = ownExtra i s := by
  rw [h.eq]
  rfl

theorem finish_agrees {i : Instr} {s s' t t' : State} (h : s.AgreesWith s')
    (hcrossed : pageCrossed i.operand s' = pageCrossed i.operand s) (ht : t.AgreesWith t') :
    (finish i s t).AgreesWith (finish i s' t') := by
  obtain ⟨b, m, rfl⟩ : ∃ b m, t' = { t with bus := b, mem := m } := ⟨_, _, ht.eq⟩
  cases i
  case kil | invalid => rfl
  all_goals
    simp only [finish, hcrossed, ownExtra_agrees h]
    rfl

/-- An instruction's next states agree if they start from states that agree and have been answered the same bytes. -/
theorem nextState_agrees {i : Instr} {s s' : State} (h : s.AgreesWith s')
    (hbytes : (nextState i s').bytesRead = (nextState i s).bytesRead) :
    (nextState i s).AgreesWith (nextState i s') := by
  have hend : (afterRoutine i s').bytesRead = (afterRoutine i s).bytesRead := by
    simpa only [State.bytesRead, nextState, finish_accesses] using hbytes
  obtain ⟨l, hl, -⟩ := routine_transacts i s
  obtain ⟨l', hl', -⟩ := routine_transacts i s'
  have hlength : (s'.afterReads (operandReadAddrs i.operand s')).bytesRead.length =
      (s.afterReads (operandReadAddrs i.operand s)).bytesRead.length := by
    simp only [bytesRead_afterReads, List.length_append, readsOf, filterMap_answered_readsFrom_length, h.bytesRead,
      operandReadAddrs_length i.operand s s']
  have hoperand := bytesRead_eq_of_transacts hl hl' hlength hend
  obtain ⟨hreads, hvalue, hea, hcrossed⟩ := operand_agrees h hoperand
  rw [hreads] at hoperand
  have hafter := afterReads_agrees h (readsOf_eq_of_bytes h hoperand)
  rw [afterRoutine, afterRoutine, hreads, hvalue, hea] at hend
  rw [nextState, nextState, afterRoutine, afterRoutine, hreads, hvalue, hea]
  exact finish_agrees h hcrossed (routine_agrees hafter hend)

/-! ### The fetch -/

/-- The first byte that a step while Running reads is the opcode. -/
theorem head?_bytesRead_of_transacts {s t : State} {l : List BusAccess}
    (h : (fetched (lengthAtPc s) s).Transacts l t) : t.bytesRead.head? = some (s.answer 0 s.pc) := by
  have hfetch : (fetched (lengthAtPc s) s).bytesRead.head? = some (s.answer 0 s.pc) := by
    obtain h | h | h := opcodeLength_cases (s.answer 0 s.pc) <;> rw [lengthAtPc, h] <;> rfl
  rw [State.bytesRead] at hfetch ⊢
  rw [h.accesses, List.filterMap_append, List.head?_append, hfetch]
  rfl

theorem bytesRead_fetched (n : Nat) (s : State) :
    (fetched n s).bytesRead = (readsOf s ([s.pc, s.pc + 1, s.pc + 2].take n)).filterMap answered := rfl

/-- Fetches at the same opcode that are answered the same bytes read the same instruction. -/
theorem instrAtPc_agrees {s s' : State} (h : s.AgreesWith s') (hop : s'.answer 0 s'.pc = s.answer 0 s.pc)
    (hbytes : (fetched (lengthAtPc s) s').bytesRead = (fetched (lengthAtPc s) s).bytesRead) :
    instrAtPc s' = instrAtPc s := by
  have hpc : s'.pc = s.pc := by rw [h.eq]
  rw [bytesRead_fetched, bytesRead_fetched, lengthAtPc, hpc] at hbytes
  rw [hpc] at hop
  rw [instrAtPc, instrAtPc, hpc, hop]
  obtain hlength | hlength | hlength := opcodeLength_cases (s.answer 0 s.pc)
  · exact (Entry.build_of_length_one hlength _ _).trans (Entry.build_of_length_one hlength _ _).symm
  · have hone : s'.answer 1 (s.pc + 1) = s.answer 1 (s.pc + 1) := by
      simpa [hlength, readsOf, readsFrom, answered, hop] using hbytes
    rw [hone]
    exact (Entry.build_of_length_two hlength _ _).trans (Entry.build_of_length_two hlength _ _).symm
  · rw [hlength] at hbytes
    obtain ⟨-, hone, htwo⟩ := answers_of_three_reads hbytes
    rw [hone, htwo]

theorem fetched_agrees {s s' : State} (h : s.AgreesWith s') (hop : s'.answer 0 s'.pc = s.answer 0 s.pc) {n : Nat}
    (hbytes : (fetched n s').bytesRead = (fetched n s).bytesRead) : (fetched n s).AgreesWith (fetched n s') := by
  obtain ⟨b, m, rfl⟩ : ∃ b m, s' = { s with bus := b, mem := m } := ⟨_, _, h.eq⟩
  have hreads := readsFrom_eq_of_bytes hbytes
  simp only [State.AgreesWith, fetched, readsOf, hop]
  rw [hreads]

/-- A step while Running: the opcodes agree, then the fetched states, then the next states. -/
theorem step_agrees_of_running {s s' t t' : State} (h : s.AgreesWith s') (hrun : s.run = .running)
    (hs : step s = .next t) (hs' : step s' = .next t') (hbytes : t'.bytesRead = t.bytesRead) : t.AgreesWith t' := by
  have hrun' : s'.run = .running := by rw [h.eq, hrun]
  rw [step_of_running hrun, exec_eq] at hs
  rw [step_of_running hrun', exec_eq] at hs'
  cases hs
  cases hs'
  obtain ⟨l, hl, -⟩ := nextState_transacts (instrAtPc s) (fetched (lengthAtPc s) s)
  obtain ⟨l', hl', -⟩ := nextState_transacts (instrAtPc s') (fetched (lengthAtPc s') s')
  have hop : s'.answer 0 s'.pc = s.answer 0 s.pc := by
    rw [← Option.some_inj, ← head?_bytesRead_of_transacts hl, ← head?_bytesRead_of_transacts hl', hbytes]
  have hlength : lengthAtPc s' = lengthAtPc s := by rw [lengthAtPc, hop, lengthAtPc]
  rw [hlength] at hl' hbytes ⊢
  have hfetch : (fetched (lengthAtPc s) s').bytesRead = (fetched (lengthAtPc s) s).bytesRead :=
    bytesRead_eq_of_transacts hl hl' (by
      simp [bytesRead_fetched, readsOf, filterMap_answered_readsFrom_length]) hbytes
  rw [instrAtPc_agrees h hop hfetch] at hbytes ⊢
  exact nextState_agrees (fetched_agrees h hop hfetch) hbytes

end Sys2Proof.Machine

open Sys2Proof Sys2Proof.Machine Sys2Proof.Claims

/-- Settles O11: the bytes a step reads determine, one after the other, its opcode, its instruction, its operand and what its
routine pulls. -/
theorem stepDependsOnlyOnBytesItReads : Obligations.StepDependsOnlyOnBytesItReads := by
  unfold Obligations.StepDependsOnlyOnBytesItReads
  intro s s' t t' h hs hs' hbytes
  have hagrees : s.AgreesWith s' := h
  have hrun' : s'.run = s.run := by rw [hagrees.eq]
  cases hrun : s.run with
  | running => exact step_agrees_of_running hagrees hrun hs hs' hbytes.symm
  | halted =>
    rw [step_of_halted hrun] at hs
    rw [step_of_halted (hrun'.trans hrun)] at hs'
    cases hs
    cases hs'
    rw [hagrees.eq]
    rfl
  | faulted =>
    rw [step_of_faulted hrun] at hs
    rw [step_of_faulted (hrun'.trans hrun)] at hs'
    cases hs
    cases hs'
    rw [hagrees.eq]
    rfl
end

section
/-! PROOFS. Memory and the bus (R30, R31, log entry 2): one canonical form per content, and answers that are given in order. -/

namespace Sys2Proof.Machine

open Sys2Proof.Claims

/-- Canonical lists that read alike are equal: their first cells are at one address, since a list reads as unlisted below its
first cell. -/
theorem cells_eq_of_read_eq {l l' : List Host.Cell} {low : Nat} (h : cellsWf low l = true) (h' : cellsWf low l' = true)
    (hread : ∀ a, a < 65536 → readCells l a = readCells l' a) : l = l' := by
  induction l generalizing l' low with
  | nil =>
    cases l' with
    | nil => rfl
    | cons cell' rest' =>
      obtain ⟨k', v'⟩ := cell'
      obtain ⟨-, hk', hv', -⟩ := cellsWf_cons.1 h'
      exact absurd (by simpa [readCells] using (hread k' hk').symm) hv'
  | cons cell rest ih =>
    obtain ⟨k, v⟩ := cell
    obtain ⟨hlow, hk, hv, hrest⟩ := cellsWf_cons.1 h
    cases l' with
    | nil => exact absurd (by simpa [readCells] using hread k hk) hv
    | cons cell' rest' =>
      obtain ⟨k', v'⟩ := cell'
      obtain ⟨hlow', hk', hv', hrest'⟩ := cellsWf_cons.1 h'
      have hle : ¬ k < k' := fun hlt => hv (by
        have hbelow : readCells ((k', v') :: rest') k = Config.unlistedByte :=
          readCells_below (low := k + 1) (cellsWf_cons.2 ⟨hlt, hk', hv', hrest'⟩) k.lt_succ_self
        simpa [readCells] using (hread k hk).trans hbelow)
      have hge : ¬ k' < k := fun hlt => hv' (by
        have hbelow : readCells ((k, v) :: rest) k' = Config.unlistedByte :=
          readCells_below (low := k' + 1) (cellsWf_cons.2 ⟨hlt, hk, hv, hrest⟩) k'.lt_succ_self
        simpa [readCells] using (hread k' hk').symm.trans hbelow)
      obtain rfl : k = k' := by omega
      have hvalue : v = v' := by simpa [readCells] using hread k hk
      have htail : rest = rest' := ih hrest hrest' fun a ha => by
        by_cases hka : k = a
        · rw [readCells_below hrest (by omega), readCells_below hrest' (by omega)]
        · simpa [readCells, hka] using hread a ha
      rw [hvalue, htail]

theorem Memory.eq_of_read_eq {m m' : Memory} (h : m.wf = true) (h' : m'.wf = true)
    (hread : ∀ a : Addr, m.read a = m'.read a) : m = m' := by
  have hcells : m.cells = m'.cells := cells_eq_of_read_eq h h' fun a ha => by
    simpa [Memory.read, Nat.mod_eq_of_lt ha] using hread (BitVec.ofNat 16 a)
  cases m
  cases m'
  exact congrArg Memory.mk hcells

/-- Where RAM answers, a write is read back. -/
theorem answer_memWrite_of_ram {s : State} {a c : Addr} (hport : s.bus.port a = .ram c) (h : s.mem.wf = true) (v : Byte)
    (k : Nat) : (memWrite a v s).answer k a = v := by
  have hstore : s.bus.store a v s.mem = s.mem.write c v := by
    simp only [Bus.store, Bus.storeCell, hport]
  have hanswer : (memWrite a v s).answer k a = (s.mem.write c v).read c := by
    rw [memWrite_eq, State.answer, hport, hstore]
  rw [hanswer, Memory.read_write_same h]

/-- Where read-only memory or a device answers, a write changes no memory. -/
theorem memWrite_mem_of_not_ram {s : State} {a : Addr} (hport : ∀ c, s.bus.port a ≠ .ram c) (v : Byte) :
    (memWrite a v s).mem = s.mem := by
  have hcell : s.bus.storeCell a = none := by
    unfold Bus.storeCell
    split
    next hram => exact absurd hram (hport _)
    next => rfl
    next => rfl
  rw [memWrite_eq, Bus.store, hcell]

/-- Bytes numbered in order, from any number on, are found by their numbers. -/
theorem lookup_zip_range' {bytes : List Byte} (first : Nat) {k : Nat} (h : k < bytes.length) :
    ((List.range' first bytes.length).zip bytes).lookup (first + k) = some bytes[k] := by
  induction bytes generalizing first k with
  | nil => cases h
  | cons b rest ih =>
    cases k with
    | zero => simp [List.range'_succ]
    | succ k =>
      have hne : (first + (k + 1) == first) = false := by simp
      rw [List.length_cons, List.range'_succ, List.zip_cons_cons, List.lookup_cons, hne,
        show first + (k + 1) = first + 1 + k by omega]
      exact ih (first + 1) (Nat.lt_of_succ_lt_succ h)

/-- A scripted bus answers its bytes in order, whatever the addresses. -/
theorem answer_scripted (s : State) {bytes : List Byte} {k : Nat} (h : k < bytes.length) (a : Addr) :
    (s.hostBus (Bus.scripted bytes)).answer k a = bytes[k] := by
  have hholds : ({ first := 0x0000, last := 0xFFFF, behind := .device } : Region).holds a = true := by
    have ha := a.isLt
    simp [Region.holds]
    omega
  have hport : (Bus.scripted bytes).port a = .device := by
    simp only [Bus.port, Bus.scripted, List.find?_cons, hholds]
    rfl
  have hlookup := lookup_zip_range' 0 h
  rw [← List.range_eq_range'] at hlookup
  rw [State.answer, State.hostBus_bus, hport]
  exact congrArg (fun given => given.getD (Config.deviceAnswer (0 + k) a)) hlookup

end Sys2Proof.Machine

open Sys2Proof.Machine

/-- Settles O30: canonical lists of cells that read alike are equal. -/
theorem canonicalMemoriesThatReadAlikeAreEqual : Obligations.CanonicalMemoriesThatReadAlikeAreEqual := by
  unfold Obligations.CanonicalMemoriesThatReadAlikeAreEqual
  exact fun _ _ => Memory.eq_of_read_eq

/-- Settles O12: the port at the address says what a write changes and what a read answers; a script is looked up by the
number of the read. -/
theorem busAnswersAsItsParameterSays : Obligations.BusAnswersAsItsParameterSays := by
  unfold Obligations.BusAnswersAsItsParameterSays
  refine ⟨fun s a v => ⟨rfl, rfl, fun c k hport h => answer_memWrite_of_ram hport h v k, ?noStore, ?given⟩,
    fun s bytes k a h => answer_scripted s h a, fun s k a hflat => State.answer_of_flat hflat k a⟩
  case noStore =>
    rintro c (hrom | hdevice)
    · exact memWrite_mem_of_not_ram (by simp [hrom]) v
    · exact memWrite_mem_of_not_ram (by simp [hdevice]) v
  case given =>
    intro k b hport hlookup
    rw [State.answer, hport]
    simp only [Bus.deviceAnswer, hlookup, Option.getD_some]
end

section
/-! PROOFS. The addressing modes in integers (R70 to R82, R265): the resolver's result and reads in the words of the
statements. -/

namespace Sys2Proof.Machine

open Sys2Proof.Claims

/-! ### Sums modulo 256 and 65536 -/

theorem ofNat_mod_eq_zext16 (v : Byte) : BitVec.ofNat 16 (v.toNat % 256) = zext16 v := by
  apply BitVec.eq_of_toNat_eq
  simp [zext16]
  omega

theorem ofNat_add_mod_eq_zext16 (v : Byte) (n : Nat) :
    BitVec.ofNat 16 ((v.toNat + n) % 256) = zext16 (v + BitVec.ofNat 8 n) := by
  rw [← ofNat_mod_eq_zext16, BitVec.toNat_add, BitVec.toNat_ofNat]
  simp

theorem ofNat_toNat_eq_zext16 (v : Byte) : BitVec.ofNat 16 v.toNat = zext16 v :=
  BitVec.ofNat_toNat 16 v

theorem ofNat_add_eq_add_zext16 (w : Addr) (v : Byte) : BitVec.ofNat 16 (w.toNat + v.toNat) = w + zext16 v := by
  rw [BitVec.ofNat_add, ofNat_toNat_eq_zext16, BitVec.ofNat_toNat, BitVec.setWidth_eq]

theorem hiByte_bne_eq_decide (w w' : Addr) : (hiByte w != hiByte w') = decide (w.toNat / 256 ≠ w'.toNat / 256) := by
  rw [Bool.eq_iff_iff, bne_iff_ne, decide_eq_true_iff, ne_eq, hiByte_eq_iff]

theorem zext16_lt (v : Byte) : (zext16 v).toNat < 0x0100 := by
  have hv := v.isLt
  rw [← ofNat_mod_eq_zext16, BitVec.toNat_ofNat]
  omega

end Sys2Proof.Machine

open Sys2Proof Sys2Proof.Machine Sys2Proof.Claims

/-- Settles O24: in each mode the resolver's result and reads are the functions of the state that the statement writes in
integers. -/
theorem resolverFollowsEachMode : Obligations.ResolverFollowsEachMode := by
  unfold Obligations.ResolverFollowsEachMode
  intro s v w
  simp only [ofNat_add_eq_add_zext16, ← wordOf_eq_word, ← indirectHighAddr_eq_ofNat, ← hiByte_bne_eq_decide,
    ofNat_toNat_eq_zext16, Nat.add_assoc, ofNat_mod_eq_zext16, ofNat_add_mod_eq_zext16]
  simp only [BitVec.ofNat_add, BitVec.ofNat_toNat, BitVec.setWidth_eq, ← BitVec.add_assoc]
  refine ⟨?implied, ?accumulator, ?immediate, ?relative, ?zeroPage, ?zeroPageX, ?zeroPageY, ?absolute, ?absoluteX,
    ?absoluteY, ?indirectX, ?indirectY, ?indirect⟩
  case implied | accumulator | immediate | relative => rfl
  all_goals exact resolve_eq _ s

/-- Settles O25: each is the extension of a byte to an address. -/
theorem zeroPageAddressesStayInPageZero : Obligations.ZeroPageAddressesStayInPageZero := by
  unfold Obligations.ZeroPageAddressesStayInPageZero
  refine fun s v => ⟨fun o ho => ?address, fun o ho => ?pointer⟩
  case address =>
    simp only [List.mem_cons, List.not_mem_nil, or_false] at ho
    rw [resolve_eq]
    obtain rfl | rfl | rfl := ho <;> exact ⟨_, rfl, zext16_lt _⟩
  case pointer =>
    simp only [List.mem_cons, List.not_mem_nil, or_false] at ho
    rw [resolve_eq, State.afterReads_out, List.map_append, readsOf_kind]
    obtain rfl | rfl := ho <;> exact ⟨_, _, _, rfl, zext16_lt _, zext16_lt _⟩
end

section
/-! PROOFS. The stack on the flat RAM (R35, log entry 2): what is pushed is pulled, for every SP; and bytes placed or stored at PC
are fetched (R47, log entry 8). -/

namespace Sys2Proof.Machine

open Sys2Proof.Claims

/-! ### Pushes read back -/

/-- What a push leaves in each register, the flags and the bus. -/
@[simp] theorem pushed_fields (v : Byte) (s : State) :
    (pushed v s).a = s.a ∧ (pushed v s).x = s.x ∧ (pushed v s).y = s.y ∧ (pushed v s).sp = s.sp - 1 ∧
      (pushed v s).p = s.p ∧ (pushed v s).bus = s.bus :=
  ⟨rfl, rfl, rfl, rfl, rfl, rfl⟩

/-- What a pull leaves in each register, the flags, memory and the map of the bus. -/
@[simp] theorem pulled_fields (s : State) :
    (pulled s).a = s.a ∧ (pulled s).x = s.x ∧ (pulled s).y = s.y ∧ (pulled s).sp = s.sp + 1 ∧ (pulled s).p = s.p ∧
      (pulled s).mem = s.mem ∧ (pulled s).bus.regions = s.bus.regions :=
  ⟨rfl, rfl, rfl, rfl, rfl, rfl, rfl⟩

/-- What a read leaves in each register, the flags, memory and the map of the bus. -/
@[simp] theorem didRead_fields (a : Addr) (s : State) :
    (didRead a s).a = s.a ∧ (didRead a s).x = s.x ∧ (didRead a s).y = s.y ∧ (didRead a s).sp = s.sp ∧
      (didRead a s).p = s.p ∧ (didRead a s).mem = s.mem ∧ (didRead a s).bus.regions = s.bus.regions :=
  ⟨rfl, rfl, rfl, rfl, rfl, rfl, rfl⟩

/-- What the completion of an instruction leaves in each register, the flags, memory and the map of the bus. -/
@[simp] theorem done_fields (o : Operand) (cycles : Nat) (s : State) :
    (done o cycles s).a = s.a ∧ (done o cycles s).x = s.x ∧ (done o cycles s).y = s.y ∧ (done o cycles s).sp = s.sp ∧
      (done o cycles s).p = s.p ∧ (done o cycles s).mem = s.mem ∧
      (done o cycles s).bus.regions = s.bus.regions :=
  ⟨rfl, rfl, rfl, rfl, rfl, rfl, rfl⟩

theorem pushed_mem_wf {s : State} (h : s.mem.wf = true) (v : Byte) : (pushed v s).mem.wf = true :=
  s.bus.store_wf h _ v

/-- The stack page has a byte for each SP. -/
theorem cell_inj {sp sp' : Byte} (h : cell sp = cell sp') : sp = sp' := by
  apply BitVec.eq_of_toNat_eq
  have hnat := congrArg BitVec.toNat h
  have hsp := sp.isLt
  have hsp' := sp'.isLt
  simp only [cell, BitVec.toNat_ofNat] at hnat
  omega

/-- The first pull after a push gives the byte pushed. -/
theorem stackByte_pushed_one {s : State} (h : s.mem.wf = true) (hflat : s.bus.regions = []) (v : Byte) :
    stackByte (pushed v s) 1 = v := by
  have hsp : s.sp - 1 + BitVec.ofNat 8 1 = s.sp := BitVec.sub_add_cancel s.sp 1
  calc stackByte (pushed v s) 1
    _ = (s.bus.store (cell s.sp) v s.mem).read (cell (s.sp - 1 + BitVec.ofNat 8 1)) :=
      State.answer_of_flat (s := pushed v s) hflat _ _
    _ = v := by rw [hsp, Bus.store_of_flat hflat, Memory.read_write_same h]

/-- A push moves the bytes already on the stack one place further, all but the one it overwrites. -/
theorem stackByte_pushed_succ {s : State} (hflat : s.bus.regions = []) (v : Byte) {k : Nat} (hk : 0 < k ∧ k < 256) :
    stackByte (pushed v s) (k + 1) = stackByte s k := by
  obtain ⟨hpos, hlt⟩ := hk
  have hsp : s.sp - 1 + BitVec.ofNat 8 (k + 1) = s.sp + BitVec.ofNat 8 k := by bv_omega
  have hne : cell s.sp ≠ cell (s.sp + BitVec.ofNat 8 k) := fun heq => by
    have hcell := cell_inj heq
    bv_omega
  calc stackByte (pushed v s) (k + 1)
    _ = (s.bus.store (cell s.sp) v s.mem).read (cell (s.sp - 1 + BitVec.ofNat 8 (k + 1))) :=
      State.answer_of_flat (s := pushed v s) hflat _ _
    _ = s.mem.read (cell (s.sp + BitVec.ofNat 8 k)) := by
      rw [hsp, Bus.store_of_flat hflat, Memory.read_write_ne _ hne]
    _ = stackByte s k := (State.answer_of_flat hflat _ _).symm

/-- A word pushed, high byte first, is pulled as it was. -/
theorem word_pushed {s : State} (h : s.mem.wf = true) (hflat : s.bus.regions = []) (w : Addr) :
    word (stackByte (pushed (low w) (pushed (high w) s)) 2) (stackByte (pushed (low w) (pushed (high w) s)) 1) = w := by
  have hhigh : (pushed (high w) s).bus.regions = [] := hflat
  rw [stackByte_pushed_succ hhigh _ (by decide), stackByte_pushed_one h hflat,
    stackByte_pushed_one (pushed_mem_wf h _) hhigh, ← wordOf_eq_word, ← hiByte_eq_high, ← loByte_eq_low,
    wordOf_hiByte_loByte]

/-- On the flat RAM the bytes on the stack are those of memory, whatever has been read. -/
theorem stackByte_congr {s t : State} (hs : s.bus.regions = []) (ht : t.bus.regions = []) (hmem : t.mem = s.mem)
    (hsp : t.sp = s.sp) (k : Nat) : stackByte t k = stackByte s k := by
  rw [stackByte, stackByte, State.answer_of_flat hs, State.answer_of_flat ht, hmem, hsp]

/-! ### Bytes at PC -/

/-- Three bytes placed at PC on plain RAM are the bytes at PC: the addresses are three. -/
theorem bytesAtPc_withFetchWord {s : State} (h : s.mem.wf = true) (nbits w : Nat) :
    bytesAtPc (s.withFetchWord nbits w) =
      [byteOfNat (w % 2 ^ nbits) 0, byteOfNat (w % 2 ^ nbits) 1, byteOfNat (w % 2 ^ nbits) 2] := by
  have h01 : s.pc + 1 ≠ s.pc := by bv_omega
  have h02 : s.pc + 2 ≠ s.pc := by bv_omega
  have h12 : s.pc + 2 ≠ s.pc + 1 := by bv_omega
  have hanswer (k : Nat) (a : Addr) : (s.withFetchWord nbits w).answer k a = (s.withFetchWord nbits w).mem.read a :=
    State.answer_of_flat rfl k a
  have hwf0 := Memory.write_wf h s.pc (byteOfNat (w % 2 ^ nbits) 0)
  have hwf1 := Memory.write_wf hwf0 (s.pc + 1) (byteOfNat (w % 2 ^ nbits) 1)
  simp only [bytesAtPc, hanswer]
  simp only [State.withFetchWord, State.placeAtPc, Memory.read_write_same h, Memory.read_write_same hwf0,
    Memory.read_write_same hwf1, Memory.read_write_ne _ h01, Memory.read_write_ne _ h02, Memory.read_write_ne _ h12]

end Sys2Proof.Machine

open Sys2Proof Sys2Proof.Machine Sys2Proof.Claims

/-- Settles O26: a push and a pull are one access at the cell of SP, SP one step away modulo 256; the flat RAM reads back. -/
theorem pushAndPullWrapInPageOne : Obligations.PushAndPullWrapInPageOne := by
  unfold Obligations.PushAndPullWrapInPageOne
  intro s v
  refine ⟨?push, ?pull, ?page, fun h hflat => ?readBack⟩
  case push =>
    have hsp : BitVec.ofNat 8 (s.sp.toNat + 255) = s.sp - 1 := by bv_omega
    rw [hsp]
    exact push8_eq_pushed v s
  case pull =>
    have hcell : BitVec.ofNat 16 (0x0100 + (s.sp.toNat + 1) % 256) = cell (s.sp + 1) := by
      rw [cell, BitVec.toNat_add]
      rfl
    rw [← add_one_eq_ofNat, hcell]
    exact pull8_eq_pulled s
  case page =>
    have hsp := s.sp.isLt
    rw [stackAddr_eq_cell, cell, BitVec.toNat_ofNat]
    omega
  case readBack =>
    rw [push8_eq_pushed, pull8_eq_pulled]
    exact ⟨stackByte_pushed_one h hflat v, BitVec.sub_add_cancel s.sp 1⟩

/-- Settles O31: the placed bytes are the bytes at PC, and the step executes the instruction they decode to. -/
theorem placedTableWordIsRunNext : Obligations.PlacedTableWordIsRunNext := by
  unfold Obligations.PlacedTableWordIsRunNext
  intro s nbits w i h hdecode
  have hbytes := bytesAtPc_withFetchWord h nbits w
  simp only [decodeTableWord, ← hbytes, decode_bytesAtPc, Option.some_inj] at hdecode
  subst hdecode
  rw [← lengthAtPc_eq_encode_length]
  exact step_of_running rfl

/-- Settles O32: the byte at PC is the stored one, and the trace record of the next step has the opcode there. -/
theorem storeIsSeenByNextFetch : Obligations.StoreIsSeenByNextFetch := by
  unfold Obligations.StoreIsSeenByNextFetch
  intro s h hflat
  refine ⟨_, runStore_eq_wrote (ea := s.pc) rfl s.a, fun u hrun hstep => ?_⟩
  refine ⟨_, traceRecordHoldsStateBeforeInstruction _ u hrun hstep, ?_, rfl⟩
  exact answer_memWrite_of_ram (s := done (.absolute s.pc) _ s) (Bus.port_of_flat hflat _) h s.a 0

/-- Settles O42: RTS pulls the word that JSR pushed, the address before the next instruction. -/
theorem rtsUndoesJsr : Obligations.RtsUndoesJsr := by
  unfold Obligations.RtsUndoesJsr
  intro w s h hflat
  obtain ⟨-, -, hexec⟩ := jsrPushesAndRtsPullsReturnAddress
  have hreturn := word_pushed (s := didRead w (done .implied 6 s)) h hflat (s.pc - 1)
  have hpc : s.pc - 1 + 1 = s.pc := BitVec.sub_add_cancel s.pc 1
  have hsp : s.sp - 1 - 1 + 1 + 1 = s.sp := by bv_omega
  refine ⟨_, _, (hexec w s).1, (hexec w _).2, rfl, (congrArg (· + 1) hreturn).trans hpc, hsp, ?_⟩
  simp

/-- BRK, by the fields that a trap return pulls or leaves. -/
theorem exec_brk_fields {s : State} (hflat : s.bus.regions = []) :
    ∃ t, exec .brk s = .next t ∧ t.a = s.a ∧ t.x = s.x ∧ t.y = s.y ∧ t.p = s.p ∧ t.sp = s.sp - 1 - 1 - 1 ∧
      ∀ k, stackByte t k =
        stackByte (pushed s.p.packBrk (pushed (low s.pc) (pushed (high s.pc) (done .implied 7 s)))) k := by
  refine ⟨_, brkPushesAndVectors.2 s, by simp, by simp, by simp, by simp, by simp, fun k => ?_⟩
  exact stackByte_congr (by simp [hflat]) (by simp [hflat]) (by simp; rfl) (by simp) k

/-- RTI, by the fields that a trap entry leaves or pushes. -/
theorem exec_rti_fields (s : State) :
    ∃ t, exec .rti s = .next t ∧ t.a = s.a ∧ t.x = s.x ∧ t.y = s.y ∧ t.mem = s.mem ∧ t.sp = s.sp + 1 + 1 + 1 ∧
      t.p = Flags.unpack (stackByte s 1) ∧ t.pc = word (stackByte s 3) (stackByte s 2) :=
  ⟨_, rtiPullsFlagsAndPc.2 s, by simp, by simp, by simp, by simp, by simp, rfl, rfl⟩

/-- Settles O43: RTI pulls the flags and the word that BRK pushed; the reads of the vector in between change no byte. -/
theorem rtiUndoesBrk : Obligations.RtiUndoesBrk := by
  unfold Obligations.RtiUndoesBrk
  intro s h hflat
  obtain ⟨t, hbrk, ha, hx, hy, hp, hsp, hstack⟩ := exec_brk_fields hflat
  obtain ⟨u, hrti, ha', hx', hy', hmem, hsp', hp', hpc⟩ := exec_rti_fields t
  have hwf := pushed_mem_wf (s := pushed (high s.pc) (done .implied 7 s)) (pushed_mem_wf h _) (low s.pc)
  have hword := word_pushed (s := done .implied 7 s) h hflat s.pc
  refine ⟨t, u, hbrk, hrti, hp, ?sp, ?pc, ?sp', ?flags, ha'.trans ha, hx'.trans hx, hy'.trans hy, hmem⟩
  case sp =>
    rw [hsp]
    bv_omega
  case sp' =>
    rw [hsp', hsp]
    bv_omega
  case pc =>
    have hdeeper (k : Nat) := stackByte_pushed_succ (s := pushed (low s.pc) (pushed (high s.pc) (done .implied 7 s)))
      (by simpa using hflat) s.p.packBrk (k := k)
    rw [hpc, hstack, hstack, hdeeper 2 (by decide), hdeeper 1 (by decide), hword]
  case flags =>
    rw [hp', hstack, stackByte_pushed_one hwf (by simpa using hflat), Flags.packBrk_eq_toByte, Flags.unpack_toByte]

/-- Settles O45: the byte pulled is the byte pushed, and nothing else that PLA or PLP reads was changed in between. -/
theorem pullsUndoPushes : Obligations.PullsUndoPushes := by
  unfold Obligations.PullsUndoPushes
  intro s h hflat
  obtain ⟨-, -, -, -, hexec⟩ := stackInstructionsPushAndPull
  obtain ⟨hpha, hphp, -, -⟩ := hexec s
  have hsp : s.sp - 1 + 1 = s.sp := BitVec.sub_add_cancel s.sp 1
  refine ⟨⟨_, { pulled (done .implied 4 (pushed s.a (done .implied 3 s))) with a := s.a, p := nz s.a s.p }, hpha,
    fun a => ?pla, rfl, hsp, rfl⟩, ⟨_, { pulled (done .implied 4 (pushed s.p.packPhp (done .implied 3 s))) with
      p := { s.p with b := false, u := true } }, hphp, fun p => ?plp, hsp, rfl⟩⟩
  case pla =>
    have hbyte : stackByte { pushed s.a (done .implied 3 s) with a := a } 1 = s.a :=
      stackByte_pushed_one (s := done .implied 3 s) h hflat s.a
    obtain ⟨-, -, hpla, -⟩ := hexec { pushed s.a (done .implied 3 s) with a := a }
    rw [hpla, hbyte]
    rfl
  case plp =>
    have hbyte : stackByte { pushed s.p.packPhp (done .implied 3 s) with p := p } 1 = s.p.packPhp :=
      stackByte_pushed_one (s := done .implied 3 s) h hflat s.p.packPhp
    have hflags : Flags.unpack (stackByte { pushed s.p.packPhp (done .implied 3 s) with p := p } 1) =
        { s.p with b := false, u := true } := by
      rw [hbyte, Flags.packPhp_eq_toByte, Flags.unpack_toByte]
    obtain ⟨-, -, -, hplp⟩ := hexec { pushed s.p.packPhp (done .implied 3 s) with p := p }
    rw [← hflags]
    exact hplp
end

section
/-! PROOFS. The read-modify-write combinations as two micro-operations (R200). -/

namespace Sys2Proof.Machine

open Sys2Proof.Claims

/-- A combination whose routine, on every operand at an address, leaves the machine as two others do one after the other: the
first writes the byte `result` of the operand there, the second takes that byte as its immediate operand. -/
theorem exec_twoMicroOperations {combination first : Instr} {second : Operand → Instr} {o : Operand} {s : State}
    {ea : Addr} (hea : (resolve o s).1.ea = some ea) (result : Byte → State → Byte)
    (hoperands : combination.operand = o ∧ first.operand = o)
    (hwrite : ∀ v t, (routine first v (some ea) t).out.accesses = t.out.accesses ++ [.write ea (result v t)])
    (hsame : ∀ v t, SameMachine (finish combination s (routine combination v (some ea) t))
      (nextState (second (.immediate (result v t))) (finish first s (routine first v (some ea) t)))) :
    ∃ t t1 t2 ea v, (resolve o s).1.ea = some ea ∧ exec combination s = .next t ∧ exec first s = .next t1 ∧
      t1.out.accesses.getLast? = some (.write ea v) ∧ exec (second (.immediate v)) t1 = .next t2 ∧ SameMachine t t2 := by
  obtain ⟨hcombination, hfirst⟩ := hoperands
  have heffective : effectiveAddr o s = some ea := by rwa [resolve_eq] at hea
  refine ⟨_, _, _, ea, result (operandValue o s) (s.afterReads (operandReadAddrs o s)), hea, exec_eq _ _, exec_eq _ _,
    ?last, exec_eq _ _, ?same⟩
  case last =>
    rw [nextState, finish_accesses, afterRoutine, hfirst, heffective, hwrite]
    exact List.getLast?_concat
  case same =>
    have hnext {i : Instr} (hi : i.operand = o) : nextState i s = finish i s
        (routine i (operandValue o s) (some ea) (s.afterReads (operandReadAddrs o s))) := by
      rw [nextState, afterRoutine, hi, heffective]
    rw [hnext hcombination, hnext hfirst]
    exact hsame _ _

end Sys2Proof.Machine

open Sys2Proof Sys2Proof.Machine Sys2Proof.Claims

/-- Settles O54: the first micro-operation sets C, N and Z and writes its byte, all of which the combination does too, but for
N and Z, which the second sets again. -/
theorem combinationsAreTwoMicroOperations : Obligations.CombinationsAreTwoMicroOperations := by
  unfold Obligations.CombinationsAreTwoMicroOperations
  intro o s hwf pair hpair
  obtain ⟨ea, hea⟩ := exists_ea_of_contains (modes := rmwComboModes) (by decide) hwf s
  simp only [List.mem_cons, List.not_mem_nil, or_false] at hpair
  obtain rfl | rfl | rfl | rfl | rfl | rfl := hpair
  · exact exec_twoMicroOperations hea (fun v _ => v <<< 1) ⟨rfl, rfl⟩ (fun _ _ => rfl) fun _ _ => rfl
  · exact exec_twoMicroOperations hea (fun v t => rolByte v t.p.c) ⟨rfl, rfl⟩ (fun _ _ => rfl) fun _ _ => rfl
  · exact exec_twoMicroOperations hea (fun v _ => v >>> 1) ⟨rfl, rfl⟩ (fun _ _ => rfl) fun _ _ => rfl
  · exact exec_twoMicroOperations hea (fun v t => rorByte v t.p.c) ⟨rfl, rfl⟩ (fun _ _ => rfl) fun _ _ => rfl
  · exact exec_twoMicroOperations hea (fun v _ => v - 1) ⟨rfl, rfl⟩ (fun _ _ => rfl) fun _ _ => rfl
  · exact exec_twoMicroOperations hea (fun v _ => v + 1) ⟨rfl, rfl⟩ (fun _ _ => rfl) fun _ _ => rfl
end
